-- ==== Sys2Proof/Word.lean ====
section
/-! DEFINITION. The widths of the values of the RegisterFile: a storage cell, a command word, a header (R8, R9, R11, R63).
Every value of the spec is an unsigned bit vector (R11), bit 0 the least significant (R10). -/

namespace Sys2Proof

/-- The value of one storage cell, and of the `data` field: 64 bits (R20, R63). -/
abbrev Word := BitVec 64

/-- A command word `CW[70:0]` (R63). -/
abbrev CmdWord := BitVec 71

/-- The header of a command word: its bits 70:64, that is `op`, `wc` and `id` in this order (R63). -/
abbrev Header := BitVec 7

end Sys2Proof
end

