-- ==== Sys2Proof/Config.lean ====
section
/-! DEFINITION. The sizes of the block (R8, R9). All are fixed by the spec and none is a parameter of the model (R8: "Every size of the
block is fixed by the source"). The block has no free value: "There is no behaviour in this block that a model should render as a
non-deterministic draw" (93_implementation_defined.md section 2), so no opaque constant stands here. -/

namespace Sys2Proof.Config

/-- NCELL, the number of storage cells (R8). -/
def cellCount : Nat := 8

/-- XLEN, the width of a cell (R8). -/
def xlen : Nat := 64

/-- The width of a command word: 1 bit `op`, 2 bits `wc`, 4 bits `id`, 64 bits `data` (R9, R63). -/
def commandBits : Nat := 71

/-- The width of a response: 1 bit valid, 1 bit error, 64 bits data (R9, R74). -/
def responseBits : Nat := 66

/-- The number of identifiers: 8 + 8 + 8 + 12 (R8, R29). -/
def identifierCount : Nat := 36

/-- The number of legal headers (R72). -/
def legalHeaderCount : Nat := 72

end Sys2Proof.Config
end

