-- ==== Sys2Proof/Syntax.lean ====
section
/-! DEFINITION. The syntax of the RegisterFile: the eight roles, the four closed enumerations of identifiers, the typed commands, the
72 instructions of the opcode table (one constructor per legal header), the view an identifier denotes as a type, and the raw form of
a textual command before it is checked. -/

namespace Sys2Proof

/-- The eight roles, one storage cell each, in the order the spec numbers the cells 0 to 7 (R20). The names carry no behaviour. -/
inductive Role where
  | accumulator | base | counter | stackPointer | stackBasePointer | destination | source | data
deriving DecidableEq, Repr

/-- The 64-bit class: one identifier per cell (R22). -/
inductive Id64 where
  | rax | rbx | rcx | rsp | rbp | rdi | rsi | rdx
deriving DecidableEq, Repr

/-- The 32-bit class: one identifier per cell (R23). -/
inductive Id32 where
  | eax | ebx | ecx | esp | ebp | edi | esi | edx
deriving DecidableEq, Repr

/-- The 16-bit class: one identifier per cell (R24). -/
inductive Id16 where
  | ax | bx | cx | sp | bp | di | si | dx
deriving DecidableEq, Repr

/-- The 8-bit class: twelve identifiers (R25). `spl`, `bpl`, `dil` and `sil` are bits 15:8 of their cells, whatever the final letter
suggests. -/
inductive Id8 where
  | al | bl | cl | dl | ah | bh | ch | spl | bpl | dil | sil | dh
deriving DecidableEq, Repr

/-- The typed commands (R60): the eight operations, each with an identifier of its own class and, for a set, a value of exactly the
class's width. A wrong-class identifier or a wider value cannot be written (R27). -/
inductive Command where
  | get64 (id : Id64)
  | get32 (id : Id32)
  | get16 (id : Id16)
  | get8 (id : Id8)
  | set64 (id : Id64) (v : BitVec 64)
  | set32 (id : Id32) (v : BitVec 32)
  | set16 (id : Id16) (v : BitVec 16)
  | set8 (id : Id8) (v : BitVec 8)
deriving DecidableEq, Repr

/-- The triple `(c, off, w)` an identifier denotes: the cell, the bit offset and the bit width of its field (R14). -/
structure View where
  cell : Role
  off : Nat
  width : Nat
deriving DecidableEq, Repr

/-- The instructions: one constructor per row of the opcode table, that is per legal header (R72, R73). The identifier is part of the
constructor; a set carries the value it writes. -/
inductive Instr where
  | get8AL
  | get8BL
  | get8CL
  | get8DL
  | get8AH
  | get8BH
  | get8CH
  | get8SPL
  | get8BPL
  | get8DIL
  | get8SIL
  | get8DH
  | get16AX
  | get16BX
  | get16CX
  | get16SP
  | get16BP
  | get16DI
  | get16SI
  | get16DX
  | get32EAX
  | get32EBX
  | get32ECX
  | get32ESP
  | get32EBP
  | get32EDI
  | get32ESI
  | get32EDX
  | get64RAX
  | get64RBX
  | get64RCX
  | get64RSP
  | get64RBP
  | get64RDI
  | get64RSI
  | get64RDX
  | set8AL (v : BitVec 8)
  | set8BL (v : BitVec 8)
  | set8CL (v : BitVec 8)
  | set8DL (v : BitVec 8)
  | set8AH (v : BitVec 8)
  | set8BH (v : BitVec 8)
  | set8CH (v : BitVec 8)
  | set8SPL (v : BitVec 8)
  | set8BPL (v : BitVec 8)
  | set8DIL (v : BitVec 8)
  | set8SIL (v : BitVec 8)
  | set8DH (v : BitVec 8)
  | set16AX (v : BitVec 16)
  | set16BX (v : BitVec 16)
  | set16CX (v : BitVec 16)
  | set16SP (v : BitVec 16)
  | set16BP (v : BitVec 16)
  | set16DI (v : BitVec 16)
  | set16SI (v : BitVec 16)
  | set16DX (v : BitVec 16)
  | set32EAX (v : BitVec 32)
  | set32EBX (v : BitVec 32)
  | set32ECX (v : BitVec 32)
  | set32ESP (v : BitVec 32)
  | set32EBP (v : BitVec 32)
  | set32EDI (v : BitVec 32)
  | set32ESI (v : BitVec 32)
  | set32EDX (v : BitVec 32)
  | set64RAX (v : BitVec 64)
  | set64RBX (v : BitVec 64)
  | set64RCX (v : BitVec 64)
  | set64RSP (v : BitVec 64)
  | set64RBP (v : BitVec 64)
  | set64RDI (v : BitVec 64)
  | set64RSI (v : BitVec 64)
  | set64RDX (v : BitVec 64)
deriving DecidableEq, Repr

/-- The typed command an instruction is: its operation, its identifier and its value (R60, R73). -/
def Instr.command : Instr → Command
  | .get8AL => .get8 .al
  | .get8BL => .get8 .bl
  | .get8CL => .get8 .cl
  | .get8DL => .get8 .dl
  | .get8AH => .get8 .ah
  | .get8BH => .get8 .bh
  | .get8CH => .get8 .ch
  | .get8SPL => .get8 .spl
  | .get8BPL => .get8 .bpl
  | .get8DIL => .get8 .dil
  | .get8SIL => .get8 .sil
  | .get8DH => .get8 .dh
  | .get16AX => .get16 .ax
  | .get16BX => .get16 .bx
  | .get16CX => .get16 .cx
  | .get16SP => .get16 .sp
  | .get16BP => .get16 .bp
  | .get16DI => .get16 .di
  | .get16SI => .get16 .si
  | .get16DX => .get16 .dx
  | .get32EAX => .get32 .eax
  | .get32EBX => .get32 .ebx
  | .get32ECX => .get32 .ecx
  | .get32ESP => .get32 .esp
  | .get32EBP => .get32 .ebp
  | .get32EDI => .get32 .edi
  | .get32ESI => .get32 .esi
  | .get32EDX => .get32 .edx
  | .get64RAX => .get64 .rax
  | .get64RBX => .get64 .rbx
  | .get64RCX => .get64 .rcx
  | .get64RSP => .get64 .rsp
  | .get64RBP => .get64 .rbp
  | .get64RDI => .get64 .rdi
  | .get64RSI => .get64 .rsi
  | .get64RDX => .get64 .rdx
  | .set8AL v => .set8 .al v
  | .set8BL v => .set8 .bl v
  | .set8CL v => .set8 .cl v
  | .set8DL v => .set8 .dl v
  | .set8AH v => .set8 .ah v
  | .set8BH v => .set8 .bh v
  | .set8CH v => .set8 .ch v
  | .set8SPL v => .set8 .spl v
  | .set8BPL v => .set8 .bpl v
  | .set8DIL v => .set8 .dil v
  | .set8SIL v => .set8 .sil v
  | .set8DH v => .set8 .dh v
  | .set16AX v => .set16 .ax v
  | .set16BX v => .set16 .bx v
  | .set16CX v => .set16 .cx v
  | .set16SP v => .set16 .sp v
  | .set16BP v => .set16 .bp v
  | .set16DI v => .set16 .di v
  | .set16SI v => .set16 .si v
  | .set16DX v => .set16 .dx v
  | .set32EAX v => .set32 .eax v
  | .set32EBX v => .set32 .ebx v
  | .set32ECX v => .set32 .ecx v
  | .set32ESP v => .set32 .esp v
  | .set32EBP v => .set32 .ebp v
  | .set32EDI v => .set32 .edi v
  | .set32ESI v => .set32 .esi v
  | .set32EDX v => .set32 .edx v
  | .set64RAX v => .set64 .rax v
  | .set64RBX v => .set64 .rbx v
  | .set64RCX v => .set64 .rcx v
  | .set64RSP v => .set64 .rsp v
  | .set64RBP v => .set64 .rbp v
  | .set64RDI v => .set64 .rdi v
  | .set64RSI v => .set64 .rsi v
  | .set64RDX v => .set64 .rdx v

/-- The two kinds of operation (R64). -/
inductive Op where
  | get | set
deriving DecidableEq, Repr

/-- The four width classes (R19, R65). -/
inductive WidthClass where
  | w8 | w16 | w32 | w64
deriving DecidableEq, Repr

/-- The width of a class in bits (R65). -/
def WidthClass.bits : WidthClass → Nat
  | .w8 => 8
  | .w16 => 16
  | .w32 => 32
  | .w64 => 64

/-- An identifier of any class, as a mnemonic names it before its class is checked against the operation's (R79). -/
inductive AnyId where
  | id64 (i : Id64)
  | id32 (i : Id32)
  | id16 (i : Id16)
  | id8 (i : Id8)
deriving DecidableEq, Repr

/-- The width class of an identifier (R27: the four classes are disjoint). -/
def AnyId.widthClass : AnyId → WidthClass
  | .id64 _ => .w64
  | .id32 _ => .w32
  | .id16 _ => .w16
  | .id8 _ => .w8

/-- A command as text gives it, before the checks of R79: the operation `getW` or `setW`, the identifier the mnemonic names, and the
value written after a comma, if one is. -/
structure RawCommand where
  op : Op
  width : WidthClass
  ident : AnyId
  value : Option Nat
deriving DecidableEq, Repr

/-- A typed command seen as a raw one (R79). -/
def Command.raw : Command → RawCommand
  | .get64 id => ⟨.get, .w64, .id64 id, none⟩
  | .get32 id => ⟨.get, .w32, .id32 id, none⟩
  | .get16 id => ⟨.get, .w16, .id16 id, none⟩
  | .get8 id => ⟨.get, .w8, .id8 id, none⟩
  | .set64 id v => ⟨.set, .w64, .id64 id, some v.toNat⟩
  | .set32 id v => ⟨.set, .w32, .id32 id, some v.toNat⟩
  | .set16 id v => ⟨.set, .w16, .id16 id, some v.toNat⟩
  | .set8 id v => ⟨.set, .w8, .id8 id, some v.toNat⟩

end Sys2Proof
end

