-- ==== Sys2Proof/WellFormed.lean ====
section
/-! DEFINITION. What makes a view, a raw textual command and an instruction well formed. At the typed level an ill-formed command
cannot be written down (R27, R130), so `Instr.wellFormed` holds of every instruction; the checks with something to refuse are those on
views (R97) and on raw textual commands (R79). -/

namespace Sys2Proof

/-- The domain of the masking unit: `1 <= w` and `off + w <= 64` (R97). -/
def View.wellFormed (v : View) : Bool :=
  decide (1 ≤ v.width) && decide (v.off + v.width ≤ 64)

/-- The identifier is of the operation's own class (R79: `get8(RAX)` is ill-formed text). -/
def RawCommand.identInClass (r : RawCommand) : Bool :=
  decide (r.ident.widthClass = r.width)

/-- A set has a value and a get has none (R79, R81). -/
def RawCommand.valueShape (r : RawCommand) : Bool :=
  match r.op with
  | .get => r.value.isNone
  | .set => r.value.isSome

/-- The value fits in the operation's width (R79: it is never truncated silently). -/
def RawCommand.valueFits (r : RawCommand) : Bool :=
  match r.value with
  | none => true
  | some v => decide (v < 2 ^ r.width.bits)

/-- A raw command denotes a typed command exactly when these three checks pass (R79). -/
def RawCommand.wellFormed (r : RawCommand) : Bool :=
  r.identInClass && r.valueShape && r.valueFits

/-- An instruction is well formed when its raw form passes the checks of R79. The types make this hold of every instruction (R27). -/
def Instr.wellFormed (i : Instr) : Bool :=
  i.command.raw.wellFormed

end Sys2Proof
end

