-- ==== Sys2Proof/Decode.lean ====
section
/-! DEFINITION. The command word: its fields (R63), the decoder (R70), which is total on 71-bit words and refuses a reserved header by
name (R72), and after it the encoder (R71), both from the tables of R64 to R67. -/

namespace Sys2Proof

/-! ## Fields of a command word (R63) -/

/-- Bits 70:64, the header. -/
def CmdWord.header (cw : CmdWord) : Header := cw.extractLsb' 64 7

/-- Bits 63:0, the data field. -/
def CmdWord.data (cw : CmdWord) : Word := cw.extractLsb' 0 64

/-- Bit 70 of the word: `op`. -/
def Header.op (h : Header) : BitVec 1 := BitVec.extractLsb' 6 1 h

/-- Bits 69:68 of the word: `wc`. -/
def Header.wc (h : Header) : BitVec 2 := BitVec.extractLsb' 4 2 h

/-- Bits 67:64 of the word: `id`. -/
def Header.id (h : Header) : BitVec 4 := BitVec.extractLsb' 0 4 h

/-! ## The code tables of the header fields -/

/-- `op`: 0 is a get, 1 a set (R64). -/
def Op.ofCode (b : BitVec 1) : Op := if b = 1#1 then .set else .get

/-- `op` of a kind of operation (R64). -/
def Op.code : Op → BitVec 1
  | .get => 0#1
  | .set => 1#1

/-- `wc`: the width is `8 << wc` (R65). -/
def WidthClass.ofCode (c : BitVec 2) : WidthClass :=
  if c = 0#2 then .w8 else if c = 1#2 then .w16 else if c = 2#2 then .w32 else .w64

/-- `wc` of a width class (R65). -/
def WidthClass.code : WidthClass → BitVec 2
  | .w8 => 0#2
  | .w16 => 1#2
  | .w32 => 2#2
  | .w64 => 3#2

/-- `id` of an identifier of the 64-bit class (R66). -/
def Id64.code : Id64 → BitVec 4
  | .rax => 0#4
  | .rbx => 1#4
  | .rcx => 2#4
  | .rsp => 3#4
  | .rbp => 4#4
  | .rdi => 5#4
  | .rsi => 6#4
  | .rdx => 7#4

/-- The identifier of the 64-bit class that a code names (R66): the codes 8 to 15 name nothing. -/
def Id64.ofCode (c : BitVec 4) : Option Id64 :=
  match c.toNat with
  | 0 => some .rax
  | 1 => some .rbx
  | 2 => some .rcx
  | 3 => some .rsp
  | 4 => some .rbp
  | 5 => some .rdi
  | 6 => some .rsi
  | 7 => some .rdx
  | _ => none

/-- `id` of an identifier of the 32-bit class (R66). -/
def Id32.code : Id32 → BitVec 4
  | .eax => 0#4
  | .ebx => 1#4
  | .ecx => 2#4
  | .esp => 3#4
  | .ebp => 4#4
  | .edi => 5#4
  | .esi => 6#4
  | .edx => 7#4

/-- The identifier of the 32-bit class that a code names (R66): the codes 8 to 15 name nothing. -/
def Id32.ofCode (c : BitVec 4) : Option Id32 :=
  match c.toNat with
  | 0 => some .eax
  | 1 => some .ebx
  | 2 => some .ecx
  | 3 => some .esp
  | 4 => some .ebp
  | 5 => some .edi
  | 6 => some .esi
  | 7 => some .edx
  | _ => none

/-- `id` of an identifier of the 16-bit class (R66). -/
def Id16.code : Id16 → BitVec 4
  | .ax => 0#4
  | .bx => 1#4
  | .cx => 2#4
  | .sp => 3#4
  | .bp => 4#4
  | .di => 5#4
  | .si => 6#4
  | .dx => 7#4

/-- The identifier of the 16-bit class that a code names (R66): the codes 8 to 15 name nothing. -/
def Id16.ofCode (c : BitVec 4) : Option Id16 :=
  match c.toNat with
  | 0 => some .ax
  | 1 => some .bx
  | 2 => some .cx
  | 3 => some .sp
  | 4 => some .bp
  | 5 => some .di
  | 6 => some .si
  | 7 => some .dx
  | _ => none

/-- `id` of an identifier of the 8-bit class (R67). -/
def Id8.code : Id8 → BitVec 4
  | .al => 0#4
  | .bl => 1#4
  | .cl => 2#4
  | .dl => 7#4
  | .ah => 8#4
  | .bh => 9#4
  | .ch => 10#4
  | .spl => 11#4
  | .bpl => 12#4
  | .dil => 13#4
  | .sil => 14#4
  | .dh => 15#4

/-- The identifier of the 8-bit class that a code names (R67): the codes 3 to 6 name nothing. -/
def Id8.ofCode (c : BitVec 4) : Option Id8 :=
  match c.toNat with
  | 0 => some .al
  | 1 => some .bl
  | 2 => some .cl
  | 7 => some .dl
  | 8 => some .ah
  | 9 => some .bh
  | 10 => some .ch
  | 11 => some .spl
  | 12 => some .bpl
  | 13 => some .dil
  | 14 => some .sil
  | 15 => some .dh
  | _ => none

/-! ## The decoder -/

/-- Why a word is `Illegal` (R72, column "why reserved"). -/
inductive Illegal where
  /-- A 16, 32 or 64-bit class with `id[3] = 1`. -/
  | idBit3
  /-- The 8-bit class with `id` 3 to 6: cells 3 to 6 have no 8-bit identifier at offset 0. -/
  | noLowByte
deriving DecidableEq, Repr

/-- `Decode` to a typed command, or `Illegal` with its reason (R70). The value of a set is the low `W` bits of `data` (R68); a get
ignores `data` (R69). -/
def decodeCommand (cw : CmdWord) : Except Illegal Command :=
  match WidthClass.ofCode cw.header.wc with
  | .w8 =>
    match Id8.ofCode cw.header.id with
    | none => .error .noLowByte
    | some id =>
      match Op.ofCode cw.header.op with
      | .get => .ok (.get8 id)
      | .set => .ok (.set8 id (cw.data.setWidth 8))
  | .w16 =>
    match Id16.ofCode cw.header.id with
    | none => .error .idBit3
    | some id =>
      match Op.ofCode cw.header.op with
      | .get => .ok (.get16 id)
      | .set => .ok (.set16 id (cw.data.setWidth 16))
  | .w32 =>
    match Id32.ofCode cw.header.id with
    | none => .error .idBit3
    | some id =>
      match Op.ofCode cw.header.op with
      | .get => .ok (.get32 id)
      | .set => .ok (.set32 id (cw.data.setWidth 32))
  | .w64 =>
    match Id64.ofCode cw.header.id with
    | none => .error .idBit3
    | some id =>
      match Op.ofCode cw.header.op with
      | .get => .ok (.get64 id)
      | .set => .ok (.set64 id cw.data)

/-- The instruction (row of the opcode table) a typed command is (R73). -/
def Command.instr : Command → Instr
  | .get64 .rax => .get64RAX
  | .get64 .rbx => .get64RBX
  | .get64 .rcx => .get64RCX
  | .get64 .rsp => .get64RSP
  | .get64 .rbp => .get64RBP
  | .get64 .rdi => .get64RDI
  | .get64 .rsi => .get64RSI
  | .get64 .rdx => .get64RDX
  | .get32 .eax => .get32EAX
  | .get32 .ebx => .get32EBX
  | .get32 .ecx => .get32ECX
  | .get32 .esp => .get32ESP
  | .get32 .ebp => .get32EBP
  | .get32 .edi => .get32EDI
  | .get32 .esi => .get32ESI
  | .get32 .edx => .get32EDX
  | .get16 .ax => .get16AX
  | .get16 .bx => .get16BX
  | .get16 .cx => .get16CX
  | .get16 .sp => .get16SP
  | .get16 .bp => .get16BP
  | .get16 .di => .get16DI
  | .get16 .si => .get16SI
  | .get16 .dx => .get16DX
  | .get8 .al => .get8AL
  | .get8 .bl => .get8BL
  | .get8 .cl => .get8CL
  | .get8 .dl => .get8DL
  | .get8 .ah => .get8AH
  | .get8 .bh => .get8BH
  | .get8 .ch => .get8CH
  | .get8 .spl => .get8SPL
  | .get8 .bpl => .get8BPL
  | .get8 .dil => .get8DIL
  | .get8 .sil => .get8SIL
  | .get8 .dh => .get8DH
  | .set64 .rax v => .set64RAX v
  | .set64 .rbx v => .set64RBX v
  | .set64 .rcx v => .set64RCX v
  | .set64 .rsp v => .set64RSP v
  | .set64 .rbp v => .set64RBP v
  | .set64 .rdi v => .set64RDI v
  | .set64 .rsi v => .set64RSI v
  | .set64 .rdx v => .set64RDX v
  | .set32 .eax v => .set32EAX v
  | .set32 .ebx v => .set32EBX v
  | .set32 .ecx v => .set32ECX v
  | .set32 .esp v => .set32ESP v
  | .set32 .ebp v => .set32EBP v
  | .set32 .edi v => .set32EDI v
  | .set32 .esi v => .set32ESI v
  | .set32 .edx v => .set32EDX v
  | .set16 .ax v => .set16AX v
  | .set16 .bx v => .set16BX v
  | .set16 .cx v => .set16CX v
  | .set16 .sp v => .set16SP v
  | .set16 .bp v => .set16BP v
  | .set16 .di v => .set16DI v
  | .set16 .si v => .set16SI v
  | .set16 .dx v => .set16DX v
  | .set8 .al v => .set8AL v
  | .set8 .bl v => .set8BL v
  | .set8 .cl v => .set8CL v
  | .set8 .dl v => .set8DL v
  | .set8 .ah v => .set8AH v
  | .set8 .bh v => .set8BH v
  | .set8 .ch v => .set8CH v
  | .set8 .spl v => .set8SPL v
  | .set8 .bpl v => .set8BPL v
  | .set8 .dil v => .set8DIL v
  | .set8 .sil v => .set8SIL v
  | .set8 .dh v => .set8DH v

/-- The decoder: every 71-bit word is one instruction or `Illegal` (R61, R70). It is stateless (R78). -/
def decode (cw : CmdWord) : Except Illegal Instr :=
  match decodeCommand cw with
  | .ok k => .ok k.instr
  | .error e => .error e

/-- The reserved headers (R72): `id[3] = 1` outside the 8-bit class, and `id` 3 to 6 within it. -/
def Header.reserved (h : Header) : Bool :=
  if h.wc = 0#2 then decide (3 ≤ h.id.toNat ∧ h.id.toNat ≤ 6) else decide (8 ≤ h.id.toNat)

/-! ## The encoder (R71) -/

/-- A header from its three fields (R63). -/
def Header.make (op : Op) (wc : WidthClass) (id : BitVec 4) : Header := op.code ++ wc.code ++ id

/-- The header of a typed command, from the tables of R64 to R67. -/
def Command.header : Command → Header
  | .get64 id => Header.make .get .w64 id.code
  | .get32 id => Header.make .get .w32 id.code
  | .get16 id => Header.make .get .w16 id.code
  | .get8 id => Header.make .get .w8 id.code
  | .set64 id _ => Header.make .set .w64 id.code
  | .set32 id _ => Header.make .set .w32 id.code
  | .set16 id _ => Header.make .set .w16 id.code
  | .set8 id _ => Header.make .set .w8 id.code

/-- The data field of a typed command's canonical word: `zext_64(v)` for a set, 0 for a get (R71). -/
def Command.data : Command → Word
  | .get64 _ => 0#64
  | .get32 _ => 0#64
  | .get16 _ => 0#64
  | .get8 _ => 0#64
  | .set64 _ v => v
  | .set32 _ v => v.setWidth 64
  | .set16 _ v => v.setWidth 64
  | .set8 _ v => v.setWidth 64

/-- As one number a command word is `H * 2^64 + data` (R63). -/
def CmdWord.make (h : Header) (data : Word) : CmdWord := h ++ data

/-- `Encode` of a typed command: its canonical word (R71). -/
def encodeCommand (k : Command) : CmdWord := CmdWord.make k.header k.data

/-- The canonical word of an instruction (R71). -/
def encode (i : Instr) : CmdWord := encodeCommand i.command

/-! ## The opcode table's words -/

/-- The command word an opcode-table word stands for: a command word has 71 bits and no serialisation into bytes (R43, R63), so the
number itself is the word. The table's 71 bits are given in 72 (whole bytes); a bit above bit 70 is no wire of the `cmd` port and is
dropped (assumption 7). -/
def tableWord (nbits w : Nat) : CmdWord := BitVec.ofNat 71 (w % 2 ^ nbits)

/-- The instruction the decoder reads from an opcode-table word, none where it refuses the word. -/
def decodeTableWord (nbits w : Nat) : Option Instr :=
  match decode (tableWord nbits w) with
  | .ok i => some i
  | .error _ => none

end Sys2Proof
end

