-- ==== Sys2Proof/Machine/State.lean ====
section
/-! DEFINITION. The state of one RegisterFile: the eight storage cells, which are the whole state the spec gives it (R20, R30 to R35),
and beside them three fields of the MODEL's own: what the engine drives on the input ports in the coming cycles, the response of the last
cycle, and the record of the faults of the run (R137). -/

namespace Sys2Proof.Machine

/-- The faults of a run. No meaning and no step ends in `Host.Outcome.fault`: the spec describes what the block does at the fault
(R131, R136), so the step goes on and the fault is RECORDED in `State.faults` (R137, assumption 3). -/
inductive Fault where
  /-- Raised by the decoder of the binary port when a presented word has a reserved header, and by nothing else (R131). Safe: the cells,
  the response and the next command are as R131 and R136 say, and the record only adds that it happened. -/
  | illegalCommand (header : Header)
deriving DecidableEq, Repr

/-- The refusals of the model. -/
inductive Refusal where
  /-- Raised by an arm of `exec` whose instruction has no meaning yet. Safe. No arm answers so: every instruction has its meaning. -/
  | notModelled (mnemonic : String)
deriving DecidableEq, Repr

/-- The eight storage cells, each a 64-bit unsigned value, one per role (R20). They are independent of one another (R21). -/
structure Cells where
  accumulator : Word
  base : Word
  counter : Word
  stackPointer : Word
  stackBasePointer : Word
  destination : Word
  source : Word
  data : Word
deriving DecidableEq, Repr

/-- The response ports `rsp_valid`, `rsp_err`, `rsp_data` (R62, R74). -/
structure Response where
  valid : Bool
  err : Bool
  data : Word
deriving DecidableEq, Repr

/-- The input ports `rst`, `cmd_valid`, `cmd` as the engine drives them in one cycle (R62). -/
structure PortIn where
  rst : Bool
  cmdValid : Bool
  cmd : CmdWord
deriving DecidableEq, Repr

/-- The state of one instance (R38). -/
structure State where
  /-- The storage cells: all the state the hardware has (R20, R35). -/
  cells : Cells
  /-- The model's own: the input-port values of the coming cycles, the next one first (assumption 1). -/
  inputs : List PortIn
  /-- The model's own: the response of the last cycle (R36: a response is no state of the hardware; assumption 2). -/
  rsp : Response
  /-- The model's own: the faults of the run, oldest first (R137, assumption 3). -/
  faults : List Fault
deriving DecidableEq, Repr

/-- Every cell zero: the cells after construction or reset (R37, R150). -/
def Cells.zero : Cells := ⟨0#64, 0#64, 0#64, 0#64, 0#64, 0#64, 0#64, 0#64⟩

/-- The response of a cycle without a command and of a cycle in reset: all zero (R74, rows 1 and 5). -/
def Response.none : Response := ⟨false, false, 0#64⟩

/-- The machine right after reset: all eight cells zero, which is the whole reset state (R37, R150). The engine has driven nothing yet,
the last response is that of the reset cycle, and no fault is recorded (assumptions 1 to 3). -/
def State.reset : State := ⟨Cells.zero, [], Response.none, []⟩

end Sys2Proof.Machine
end

