-- ==== Sys2Proof/Machine/Operands.lean ====
section
/-! DEFINITION. The operands: the numbering of the cells (R20) and `View`, the static map from an identifier to its cell, bit offset and
bit width (R14, R22 to R26), defined by exhaustive case analysis (R56). The block has no other operand form (R80, R81) and no flag
(R31), so there is no flag computation in this model. -/

namespace Sys2Proof

/-- The index of a role's cell: 0 to 7 in the order of R20. -/
def Role.index : Role → BitVec 3
  | .accumulator => 0#3
  | .base => 1#3
  | .counter => 2#3
  | .stackPointer => 3#3
  | .stackBasePointer => 4#3
  | .destination => 5#3
  | .source => 6#3
  | .data => 7#3

/-- The role of a cell index (R20). -/
def Role.ofIndex (c : BitVec 3) : Role :=
  match c.toNat with
  | 0 => .accumulator
  | 1 => .base
  | 2 => .counter
  | 3 => .stackPointer
  | 4 => .stackBasePointer
  | 5 => .destination
  | 6 => .source
  | _ => .data

/-- The A-class cells have a low-byte and a high-byte identifier; the SP-class cells have one 8-bit identifier, at bits 15:8 (R19,
R20, R25). -/
def Role.aClass : Role → Bool
  | .accumulator => true
  | .base => true
  | .counter => true
  | .stackPointer => false
  | .stackBasePointer => false
  | .destination => false
  | .source => false
  | .data => true

/-- `View` of the 64-bit class (R22). -/
def Id64.view : Id64 → View
  | .rax => ⟨.accumulator, 0, 64⟩
  | .rbx => ⟨.base, 0, 64⟩
  | .rcx => ⟨.counter, 0, 64⟩
  | .rsp => ⟨.stackPointer, 0, 64⟩
  | .rbp => ⟨.stackBasePointer, 0, 64⟩
  | .rdi => ⟨.destination, 0, 64⟩
  | .rsi => ⟨.source, 0, 64⟩
  | .rdx => ⟨.data, 0, 64⟩

/-- `View` of the 32-bit class (R23). -/
def Id32.view : Id32 → View
  | .eax => ⟨.accumulator, 0, 32⟩
  | .ebx => ⟨.base, 0, 32⟩
  | .ecx => ⟨.counter, 0, 32⟩
  | .esp => ⟨.stackPointer, 0, 32⟩
  | .ebp => ⟨.stackBasePointer, 0, 32⟩
  | .edi => ⟨.destination, 0, 32⟩
  | .esi => ⟨.source, 0, 32⟩
  | .edx => ⟨.data, 0, 32⟩

/-- `View` of the 16-bit class (R24). -/
def Id16.view : Id16 → View
  | .ax => ⟨.accumulator, 0, 16⟩
  | .bx => ⟨.base, 0, 16⟩
  | .cx => ⟨.counter, 0, 16⟩
  | .sp => ⟨.stackPointer, 0, 16⟩
  | .bp => ⟨.stackBasePointer, 0, 16⟩
  | .di => ⟨.destination, 0, 16⟩
  | .si => ⟨.source, 0, 16⟩
  | .dx => ⟨.data, 0, 16⟩

/-- `View` of the 8-bit class (R25). -/
def Id8.view : Id8 → View
  | .al => ⟨.accumulator, 0, 8⟩
  | .bl => ⟨.base, 0, 8⟩
  | .cl => ⟨.counter, 0, 8⟩
  | .dl => ⟨.data, 0, 8⟩
  | .ah => ⟨.accumulator, 8, 8⟩
  | .bh => ⟨.base, 8, 8⟩
  | .ch => ⟨.counter, 8, 8⟩
  | .spl => ⟨.stackPointer, 8, 8⟩
  | .bpl => ⟨.stackBasePointer, 8, 8⟩
  | .dil => ⟨.destination, 8, 8⟩
  | .sil => ⟨.source, 8, 8⟩
  | .dh => ⟨.data, 8, 8⟩

/-- The view of the identifier a command names (R14). -/
def Command.view : Command → View
  | .get64 id => id.view
  | .get32 id => id.view
  | .get16 id => id.view
  | .get8 id => id.view
  | .set64 id _ => id.view
  | .set32 id _ => id.view
  | .set16 id _ => id.view
  | .set8 id _ => id.view

/-- Whether a command is a get or a set (R64). -/
def Command.op : Command → Op
  | .get64 _ => .get
  | .get32 _ => .get
  | .get16 _ => .get
  | .get8 _ => .get
  | .set64 _ _ => .set
  | .set32 _ _ => .set
  | .set16 _ _ => .set
  | .set8 _ _ => .set

/-- The view of the identifier an instruction names (R14, R73). -/
def Instr.view (i : Instr) : View := i.command.view

/-- Whether an instruction is a get or a set (R64). -/
def Instr.op (i : Instr) : Op := i.command.op

/-- The value a set writes, widened with zeros; 0 for a get (R71). -/
def Instr.value (i : Instr) : Word := i.command.data

/-- Bit `j` of a cell is one of the bits `off+w-1 .. off` a view covers. -/
def View.covers (v : View) (j : Nat) : Bool := decide (v.off ≤ j) && decide (j < v.off + v.width)

end Sys2Proof
end

