-- ==== Sys2Proof/Machine/MaskingUnit.lean ====
section
/-! DEFINITION. The two pure functions of the datapath (R15): `extractField`, which a get uses to cut a view out of a cell (R92), and `insertField`,
the partial-write masking unit a set uses (R93), with its ports (R98). -/

namespace Sys2Proof.Machine

/-- `M(w)`: the 64-bit value with bits `w-1` down to 0 set and all others clear (R12). -/
def lowMask (w : Nat) : Word := (BitVec.allOnes w).setWidth 64

/-- `FM(off, w) = M(w) << off`: ones exactly at bits `off+w-1` down to `off` (R91). -/
def fieldMask (off w : Nat) : Word := lowMask w <<< off

/-- `Extract(cell, off, w) = trunc_w((cell >> off) & M(w))` (R92): the shift is logical and the mask is applied before narrowing. -/
def extractField (cell : Word) (off w : Nat) : BitVec w := ((cell >>> off) &&& lowMask w).setWidth w

/-- The masking unit fed a whole 64-bit value: the field is cleared with the complement mask, the value is masked to `w` bits and
shifted to the offset, and the two are or-ed (R93, R94). -/
def insertWord (cell : Word) (off w : Nat) (value : Word) : Word :=
  (cell &&& ~~~(fieldMask off w)) ||| ((value &&& lowMask w) <<< off)

/-- `Insert(cell, off, w, v) = (cell & ~FM(off, w)) | ((zext_64(v) & M(w)) << off)` (R93). -/
def insertField (cell : Word) (off w : Nat) (v : BitVec w) : Word := insertWord cell off w (v.setWidth 64)

/-- The width `8 << wc` a width class code selects (R65, R98). -/
def widthOfCode (wc : BitVec 2) : Nat := 8 <<< wc.toNat

/-- The offset `8 * hi` a byte select selects (R98). -/
def offsetOfSelect (hi : Bool) : Nat := if hi then 8 else 0

/-- The masking unit by its ports `old`, `wdata`, `wc`, `hi`; the result is the port `new` (R98). -/
def maskingUnit (old wdata : Word) (wc : BitVec 2) (hi : Bool) : Word :=
  insertField old (offsetOfSelect hi) (widthOfCode wc) (wdata.setWidth (widthOfCode wc))

end Sys2Proof.Machine
end

