-- ==== Sys2Proof/Machine/Ops.lean ====
section
/-! DEFINITION. The operations every meaning is written over: reading and writing a cell (R13), reading and writing a view, the typed level
of the block (R17, R60), the responses (R74), the eight shared operations, and the three things a cycle can do other than perform an
operation: reset (R151), idle (R75) and `IllegalCommand` (R131). -/

namespace Sys2Proof.Machine

open Host (Outcome)

/-! ## Cells (R13) -/

/-- `x[c]`, the one way to read a cell (R13). No cell is hard-wired (R28). -/
def Cells.read (x : Cells) : Role → Word
  | .accumulator => x.accumulator
  | .base => x.base
  | .counter => x.counter
  | .stackPointer => x.stackPointer
  | .stackBasePointer => x.stackBasePointer
  | .destination => x.destination
  | .source => x.source
  | .data => x.data

/-- `x[c] <- v`, the one way to write a cell (R13): the other seven keep their values (R21). -/
def Cells.write (x : Cells) (c : Role) (v : Word) : Cells :=
  match c with
  | .accumulator => { x with accumulator := v }
  | .base => { x with base := v }
  | .counter => { x with counter := v }
  | .stackPointer => { x with stackPointer := v }
  | .stackBasePointer => { x with stackBasePointer := v }
  | .destination => { x with destination := v }
  | .source => { x with source := v }
  | .data => { x with data := v }

/-- What a get returns: `Extract(x[c], off, w)` (R100). -/
def Cells.readView (x : Cells) (view : View) (w : Nat) : BitVec w :=
  extractField (x.read view.cell) view.off w

/-- What a set does to the cells: `x[c] <- Insert(x[c], off, w, v)`, a read-modify-write of one cell (R110). -/
def Cells.writeView (x : Cells) (view : View) (w : Nat) (v : BitVec w) : Cells :=
  x.write view.cell (insertField (x.read view.cell) view.off w v)

/-! ## Responses (R74) -/

/-- The response of a get of width `W`: `zext_64(result)`, so bits `63:W` are 0 (R74). -/
def Response.value {w : Nat} (result : BitVec w) : Response := ⟨true, false, result.setWidth 64⟩

/-- The response of a set: it returns nothing (R74). -/
def Response.done : Response := ⟨true, false, 0#64⟩

/-- The response of a reserved header (R74, R131). -/
def Response.illegal : Response := ⟨true, true, 0#64⟩

/-! ## The typed level (R17, R60) -/

/-- What a typed operation returns to its caller: a value of exactly the class's width, or nothing for a set (R60, R81). -/
inductive TypedResult where
  | value64 (r : BitVec 64)
  | value32 (r : BitVec 32)
  | value16 (r : BitVec 16)
  | value8 (r : BitVec 8)
  | nothing
deriving DecidableEq, Repr

/-- How the binary level carries a typed result (R74). -/
def TypedResult.response : TypedResult → Response
  | .value64 r => Response.value r
  | .value32 r => Response.value r
  | .value16 r => Response.value r
  | .value8 r => Response.value r
  | .nothing => Response.done

/-- `step : State x Command -> State x Response` of the typed level (R17): total, and nothing can fail (R55, R130). -/
def applyTyped (k : Command) (x : Cells) : Cells × TypedResult :=
  match k with
  | .get64 id => (x, .value64 (x.readView id.view 64))
  | .get32 id => (x, .value32 (x.readView id.view 32))
  | .get16 id => (x, .value16 (x.readView id.view 16))
  | .get8 id => (x, .value8 (x.readView id.view 8))
  | .set64 id v => (x.writeView id.view 64 v, .nothing)
  | .set32 id v => (x.writeView id.view 32 v, .nothing)
  | .set16 id v => (x.writeView id.view 16 v, .nothing)
  | .set8 id v => (x.writeView id.view 8 v, .nothing)

/-- A typed command performed on the machine: the cells and the response of R131's last two rows; the engine's coming inputs and the
record of faults are not touched. -/
def perform (k : Command) (s : State) : State :=
  { s with cells := (applyTyped k s.cells).1, rsp := (applyTyped k s.cells).2.response }

/-! ## The eight shared operations -/

/-- `get64(id)` (R101). -/
def get64 (id : Id64) (s : State) : Outcome State Fault Refusal := .next (perform (.get64 id) s)

/-- `get32(id)` (R102). -/
def get32 (id : Id32) (s : State) : Outcome State Fault Refusal := .next (perform (.get32 id) s)

/-- `get16(id)` (R103). -/
def get16 (id : Id16) (s : State) : Outcome State Fault Refusal := .next (perform (.get16 id) s)

/-- `get8(id)` (R104). -/
def get8 (id : Id8) (s : State) : Outcome State Fault Refusal := .next (perform (.get8 id) s)

/-- `set64(id, v)` (R111). -/
def set64 (id : Id64) (v : BitVec 64) (s : State) : Outcome State Fault Refusal := .next (perform (.set64 id v) s)

/-- `set32(id, v)`: bits 63:32 are preserved (R112). -/
def set32 (id : Id32) (v : BitVec 32) (s : State) : Outcome State Fault Refusal := .next (perform (.set32 id v) s)

/-- `set16(id, v)` (R113). -/
def set16 (id : Id16) (v : BitVec 16) (s : State) : Outcome State Fault Refusal := .next (perform (.set16 id v) s)

/-- `set8(id, v)`: the field at the identifier's offset, 0 or 8 (R114). -/
def set8 (id : Id8) (v : BitVec 8) (s : State) : Outcome State Fault Refusal := .next (perform (.set8 id v) s)

/-! ## What else a cycle can do -/

/-- TAKING `IllegalCommand`, the one fault (R131): the response is (1, 1, 0) and no cell changes; the hardware stores nothing (R132)
and there is nothing to save, to enter or to return to (R135, R136: the next command is performed like any other). The model records
the fault and goes on (R137, assumption 3). -/
def takeIllegalCommand (h : Header) (s : State) : State :=
  { s with rsp := Response.illegal, faults := s.faults ++ [.illegalCommand h] }

/-- A cycle with `rst = 1`: every cell becomes 0 and there is no response, whatever `cmd_valid` and `cmd` hold (R151). The record of
faults, which is no state of the hardware, stays (assumption 5). -/
def resetCycle (s : State) : State :=
  { s with cells := Cells.zero, rsp := Response.none }

/-- A cycle with `cmd_valid = 0`: no operation, every cell keeps its value, no response (R75). -/
def idleCycle (s : State) : State :=
  { s with rsp := Response.none }

/-! ## The engine's inputs (assumption 1) -/

/-- The input ports when the engine drives nothing: no reset and no command (R75). -/
def PortIn.idle : PortIn := ⟨false, false, 0#71⟩

/-- The input ports when the engine presents a command word (R131: `cmd_valid = 1`, `rst = 0`). -/
def PortIn.present (cw : CmdWord) : PortIn := ⟨false, true, cw⟩

/-- What the input ports hold in this cycle. -/
def State.portIn (s : State) : PortIn := s.inputs.headD PortIn.idle

/-- The state once this cycle's inputs are taken. -/
def State.afterPortIn (s : State) : State := { s with inputs := s.inputs.tail }

/-- The engine presents a command word in the next cycle, before whatever else it drives (assumption 6). -/
def State.presentNext (s : State) (cw : CmdWord) : State := { s with inputs := PortIn.present cw :: s.inputs }

end Sys2Proof.Machine
end

