-- ==== Sys2Proof/Machine/Get.lean ====
section
/-! DEFINITION. The meanings of the 36 get instructions (R100 to R105): one definition each, over the shared operations `get64` to `get8`. -/

namespace Sys2Proof.Machine

open Host (Outcome)

/-! ## `get64` (R101) -/

/-- `get64(RAX)`: the response is bits 63:0 of cell 0, Accumulator (R101, R22). -/
def execGet64RAX (s : State) : Outcome State Fault Refusal := get64 .rax s

/-- `get64(RBX)`: the response is bits 63:0 of cell 1, Base (R101, R22). -/
def execGet64RBX (s : State) : Outcome State Fault Refusal := get64 .rbx s

/-- `get64(RCX)`: the response is bits 63:0 of cell 2, Counter (R101, R22). -/
def execGet64RCX (s : State) : Outcome State Fault Refusal := get64 .rcx s

/-- `get64(RSP)`: the response is bits 63:0 of cell 3, StackPointer (R101, R22). -/
def execGet64RSP (s : State) : Outcome State Fault Refusal := get64 .rsp s

/-- `get64(RBP)`: the response is bits 63:0 of cell 4, StackBasePointer (R101, R22). -/
def execGet64RBP (s : State) : Outcome State Fault Refusal := get64 .rbp s

/-- `get64(RDI)`: the response is bits 63:0 of cell 5, Destination (R101, R22). -/
def execGet64RDI (s : State) : Outcome State Fault Refusal := get64 .rdi s

/-- `get64(RSI)`: the response is bits 63:0 of cell 6, Source (R101, R22). -/
def execGet64RSI (s : State) : Outcome State Fault Refusal := get64 .rsi s

/-- `get64(RDX)`: the response is bits 63:0 of cell 7, Data (R101, R22). -/
def execGet64RDX (s : State) : Outcome State Fault Refusal := get64 .rdx s

/-! ## `get32` (R102) -/

/-- `get32(EAX)`: the response is bits 31:0 of cell 0, Accumulator (R102, R23). -/
def execGet32EAX (s : State) : Outcome State Fault Refusal := get32 .eax s

/-- `get32(EBX)`: the response is bits 31:0 of cell 1, Base (R102, R23). -/
def execGet32EBX (s : State) : Outcome State Fault Refusal := get32 .ebx s

/-- `get32(ECX)`: the response is bits 31:0 of cell 2, Counter (R102, R23). -/
def execGet32ECX (s : State) : Outcome State Fault Refusal := get32 .ecx s

/-- `get32(ESP)`: the response is bits 31:0 of cell 3, StackPointer (R102, R23). -/
def execGet32ESP (s : State) : Outcome State Fault Refusal := get32 .esp s

/-- `get32(EBP)`: the response is bits 31:0 of cell 4, StackBasePointer (R102, R23). -/
def execGet32EBP (s : State) : Outcome State Fault Refusal := get32 .ebp s

/-- `get32(EDI)`: the response is bits 31:0 of cell 5, Destination (R102, R23). -/
def execGet32EDI (s : State) : Outcome State Fault Refusal := get32 .edi s

/-- `get32(ESI)`: the response is bits 31:0 of cell 6, Source (R102, R23). -/
def execGet32ESI (s : State) : Outcome State Fault Refusal := get32 .esi s

/-- `get32(EDX)`: the response is bits 31:0 of cell 7, Data (R102, R23). -/
def execGet32EDX (s : State) : Outcome State Fault Refusal := get32 .edx s

/-! ## `get16` (R103) -/

/-- `get16(AX)`: the response is bits 15:0 of cell 0, Accumulator (R103, R24). -/
def execGet16AX (s : State) : Outcome State Fault Refusal := get16 .ax s

/-- `get16(BX)`: the response is bits 15:0 of cell 1, Base (R103, R24). -/
def execGet16BX (s : State) : Outcome State Fault Refusal := get16 .bx s

/-- `get16(CX)`: the response is bits 15:0 of cell 2, Counter (R103, R24). -/
def execGet16CX (s : State) : Outcome State Fault Refusal := get16 .cx s

/-- `get16(SP)`: the response is bits 15:0 of cell 3, StackPointer (R103, R24). -/
def execGet16SP (s : State) : Outcome State Fault Refusal := get16 .sp s

/-- `get16(BP)`: the response is bits 15:0 of cell 4, StackBasePointer (R103, R24). -/
def execGet16BP (s : State) : Outcome State Fault Refusal := get16 .bp s

/-- `get16(DI)`: the response is bits 15:0 of cell 5, Destination (R103, R24). -/
def execGet16DI (s : State) : Outcome State Fault Refusal := get16 .di s

/-- `get16(SI)`: the response is bits 15:0 of cell 6, Source (R103, R24). -/
def execGet16SI (s : State) : Outcome State Fault Refusal := get16 .si s

/-- `get16(DX)`: the response is bits 15:0 of cell 7, Data (R103, R24). -/
def execGet16DX (s : State) : Outcome State Fault Refusal := get16 .dx s

/-! ## `get8` (R104) -/

/-- `get8(AL)`: the response is bits 7:0 of cell 0, Accumulator (R104, R25). -/
def execGet8AL (s : State) : Outcome State Fault Refusal := get8 .al s

/-- `get8(BL)`: the response is bits 7:0 of cell 1, Base (R104, R25). -/
def execGet8BL (s : State) : Outcome State Fault Refusal := get8 .bl s

/-- `get8(CL)`: the response is bits 7:0 of cell 2, Counter (R104, R25). -/
def execGet8CL (s : State) : Outcome State Fault Refusal := get8 .cl s

/-- `get8(DL)`: the response is bits 7:0 of cell 7, Data (R104, R25). -/
def execGet8DL (s : State) : Outcome State Fault Refusal := get8 .dl s

/-- `get8(AH)`: the response is bits 15:8 of cell 0, Accumulator (R104, R25). -/
def execGet8AH (s : State) : Outcome State Fault Refusal := get8 .ah s

/-- `get8(BH)`: the response is bits 15:8 of cell 1, Base (R104, R25). -/
def execGet8BH (s : State) : Outcome State Fault Refusal := get8 .bh s

/-- `get8(CH)`: the response is bits 15:8 of cell 2, Counter (R104, R25). -/
def execGet8CH (s : State) : Outcome State Fault Refusal := get8 .ch s

/-- `get8(SPL)`: the response is bits 15:8 of cell 3, StackPointer (R104, R25). -/
def execGet8SPL (s : State) : Outcome State Fault Refusal := get8 .spl s

/-- `get8(BPL)`: the response is bits 15:8 of cell 4, StackBasePointer (R104, R25). -/
def execGet8BPL (s : State) : Outcome State Fault Refusal := get8 .bpl s

/-- `get8(DIL)`: the response is bits 15:8 of cell 5, Destination (R104, R25). -/
def execGet8DIL (s : State) : Outcome State Fault Refusal := get8 .dil s

/-- `get8(SIL)`: the response is bits 15:8 of cell 6, Source (R104, R25). -/
def execGet8SIL (s : State) : Outcome State Fault Refusal := get8 .sil s

/-- `get8(DH)`: the response is bits 15:8 of cell 7, Data (R104, R25). -/
def execGet8DH (s : State) : Outcome State Fault Refusal := get8 .dh s

end Sys2Proof.Machine
end

