-- ==== Sys2Proof/Machine/Set.lean ====
section
/-! DEFINITION. The meanings of the 36 set instructions (R110 to R118): one definition each, over the shared operations `set64` to `set8`. -/

namespace Sys2Proof.Machine

open Host (Outcome)

/-! ## `set64` (R111) -/

/-- `set64(RAX, v)`: bits 63:0 of cell 0, Accumulator become `v` (R111, R22). -/
def execSet64RAX (v : BitVec 64) (s : State) : Outcome State Fault Refusal := set64 .rax v s

/-- `set64(RBX, v)`: bits 63:0 of cell 1, Base become `v` (R111, R22). -/
def execSet64RBX (v : BitVec 64) (s : State) : Outcome State Fault Refusal := set64 .rbx v s

/-- `set64(RCX, v)`: bits 63:0 of cell 2, Counter become `v` (R111, R22). -/
def execSet64RCX (v : BitVec 64) (s : State) : Outcome State Fault Refusal := set64 .rcx v s

/-- `set64(RSP, v)`: bits 63:0 of cell 3, StackPointer become `v` (R111, R22). -/
def execSet64RSP (v : BitVec 64) (s : State) : Outcome State Fault Refusal := set64 .rsp v s

/-- `set64(RBP, v)`: bits 63:0 of cell 4, StackBasePointer become `v` (R111, R22). -/
def execSet64RBP (v : BitVec 64) (s : State) : Outcome State Fault Refusal := set64 .rbp v s

/-- `set64(RDI, v)`: bits 63:0 of cell 5, Destination become `v` (R111, R22). -/
def execSet64RDI (v : BitVec 64) (s : State) : Outcome State Fault Refusal := set64 .rdi v s

/-- `set64(RSI, v)`: bits 63:0 of cell 6, Source become `v` (R111, R22). -/
def execSet64RSI (v : BitVec 64) (s : State) : Outcome State Fault Refusal := set64 .rsi v s

/-- `set64(RDX, v)`: bits 63:0 of cell 7, Data become `v` (R111, R22). -/
def execSet64RDX (v : BitVec 64) (s : State) : Outcome State Fault Refusal := set64 .rdx v s

/-! ## `set32` (R112) -/

/-- `set32(EAX, v)`: bits 31:0 of cell 0, Accumulator become `v` (R112, R23). -/
def execSet32EAX (v : BitVec 32) (s : State) : Outcome State Fault Refusal := set32 .eax v s

/-- `set32(EBX, v)`: bits 31:0 of cell 1, Base become `v` (R112, R23). -/
def execSet32EBX (v : BitVec 32) (s : State) : Outcome State Fault Refusal := set32 .ebx v s

/-- `set32(ECX, v)`: bits 31:0 of cell 2, Counter become `v` (R112, R23). -/
def execSet32ECX (v : BitVec 32) (s : State) : Outcome State Fault Refusal := set32 .ecx v s

/-- `set32(ESP, v)`: bits 31:0 of cell 3, StackPointer become `v` (R112, R23). -/
def execSet32ESP (v : BitVec 32) (s : State) : Outcome State Fault Refusal := set32 .esp v s

/-- `set32(EBP, v)`: bits 31:0 of cell 4, StackBasePointer become `v` (R112, R23). -/
def execSet32EBP (v : BitVec 32) (s : State) : Outcome State Fault Refusal := set32 .ebp v s

/-- `set32(EDI, v)`: bits 31:0 of cell 5, Destination become `v` (R112, R23). -/
def execSet32EDI (v : BitVec 32) (s : State) : Outcome State Fault Refusal := set32 .edi v s

/-- `set32(ESI, v)`: bits 31:0 of cell 6, Source become `v` (R112, R23). -/
def execSet32ESI (v : BitVec 32) (s : State) : Outcome State Fault Refusal := set32 .esi v s

/-- `set32(EDX, v)`: bits 31:0 of cell 7, Data become `v` (R112, R23). -/
def execSet32EDX (v : BitVec 32) (s : State) : Outcome State Fault Refusal := set32 .edx v s

/-! ## `set16` (R113) -/

/-- `set16(AX, v)`: bits 15:0 of cell 0, Accumulator become `v` (R113, R24). -/
def execSet16AX (v : BitVec 16) (s : State) : Outcome State Fault Refusal := set16 .ax v s

/-- `set16(BX, v)`: bits 15:0 of cell 1, Base become `v` (R113, R24). -/
def execSet16BX (v : BitVec 16) (s : State) : Outcome State Fault Refusal := set16 .bx v s

/-- `set16(CX, v)`: bits 15:0 of cell 2, Counter become `v` (R113, R24). -/
def execSet16CX (v : BitVec 16) (s : State) : Outcome State Fault Refusal := set16 .cx v s

/-- `set16(SP, v)`: bits 15:0 of cell 3, StackPointer become `v` (R113, R24). -/
def execSet16SP (v : BitVec 16) (s : State) : Outcome State Fault Refusal := set16 .sp v s

/-- `set16(BP, v)`: bits 15:0 of cell 4, StackBasePointer become `v` (R113, R24). -/
def execSet16BP (v : BitVec 16) (s : State) : Outcome State Fault Refusal := set16 .bp v s

/-- `set16(DI, v)`: bits 15:0 of cell 5, Destination become `v` (R113, R24). -/
def execSet16DI (v : BitVec 16) (s : State) : Outcome State Fault Refusal := set16 .di v s

/-- `set16(SI, v)`: bits 15:0 of cell 6, Source become `v` (R113, R24). -/
def execSet16SI (v : BitVec 16) (s : State) : Outcome State Fault Refusal := set16 .si v s

/-- `set16(DX, v)`: bits 15:0 of cell 7, Data become `v` (R113, R24). -/
def execSet16DX (v : BitVec 16) (s : State) : Outcome State Fault Refusal := set16 .dx v s

/-! ## `set8` (R114) -/

/-- `set8(AL, v)`: bits 7:0 of cell 0, Accumulator become `v` (R114, R25). -/
def execSet8AL (v : BitVec 8) (s : State) : Outcome State Fault Refusal := set8 .al v s

/-- `set8(BL, v)`: bits 7:0 of cell 1, Base become `v` (R114, R25). -/
def execSet8BL (v : BitVec 8) (s : State) : Outcome State Fault Refusal := set8 .bl v s

/-- `set8(CL, v)`: bits 7:0 of cell 2, Counter become `v` (R114, R25). -/
def execSet8CL (v : BitVec 8) (s : State) : Outcome State Fault Refusal := set8 .cl v s

/-- `set8(DL, v)`: bits 7:0 of cell 7, Data become `v` (R114, R25). -/
def execSet8DL (v : BitVec 8) (s : State) : Outcome State Fault Refusal := set8 .dl v s

/-- `set8(AH, v)`: bits 15:8 of cell 0, Accumulator become `v` (R114, R25). -/
def execSet8AH (v : BitVec 8) (s : State) : Outcome State Fault Refusal := set8 .ah v s

/-- `set8(BH, v)`: bits 15:8 of cell 1, Base become `v` (R114, R25). -/
def execSet8BH (v : BitVec 8) (s : State) : Outcome State Fault Refusal := set8 .bh v s

/-- `set8(CH, v)`: bits 15:8 of cell 2, Counter become `v` (R114, R25). -/
def execSet8CH (v : BitVec 8) (s : State) : Outcome State Fault Refusal := set8 .ch v s

/-- `set8(SPL, v)`: bits 15:8 of cell 3, StackPointer become `v` (R114, R25). -/
def execSet8SPL (v : BitVec 8) (s : State) : Outcome State Fault Refusal := set8 .spl v s

/-- `set8(BPL, v)`: bits 15:8 of cell 4, StackBasePointer become `v` (R114, R25). -/
def execSet8BPL (v : BitVec 8) (s : State) : Outcome State Fault Refusal := set8 .bpl v s

/-- `set8(DIL, v)`: bits 15:8 of cell 5, Destination become `v` (R114, R25). -/
def execSet8DIL (v : BitVec 8) (s : State) : Outcome State Fault Refusal := set8 .dil v s

/-- `set8(SIL, v)`: bits 15:8 of cell 6, Source become `v` (R114, R25). -/
def execSet8SIL (v : BitVec 8) (s : State) : Outcome State Fault Refusal := set8 .sil v s

/-- `set8(DH, v)`: bits 15:8 of cell 7, Data become `v` (R114, R25). -/
def execSet8DH (v : BitVec 8) (s : State) : Outcome State Fault Refusal := set8 .dh v s

end Sys2Proof.Machine
end

