-- ==== Sys2Proof/Machine/Dispatch.lean ====
section
/-! DEFINITION. `exec`: one arm per instruction of the opcode table (R73), each a direct call of its meaning. -/

namespace Sys2Proof.Machine

def exec (i : Instr) (s : State) : Host.Outcome State Fault Refusal :=
  match i with
  | .get8AL => Sys2Proof.Machine.execGet8AL s
  | .get8BL => Sys2Proof.Machine.execGet8BL s
  | .get8CL => Sys2Proof.Machine.execGet8CL s
  | .get8DL => Sys2Proof.Machine.execGet8DL s
  | .get8AH => Sys2Proof.Machine.execGet8AH s
  | .get8BH => Sys2Proof.Machine.execGet8BH s
  | .get8CH => Sys2Proof.Machine.execGet8CH s
  | .get8SPL => Sys2Proof.Machine.execGet8SPL s
  | .get8BPL => Sys2Proof.Machine.execGet8BPL s
  | .get8DIL => Sys2Proof.Machine.execGet8DIL s
  | .get8SIL => Sys2Proof.Machine.execGet8SIL s
  | .get8DH => Sys2Proof.Machine.execGet8DH s
  | .get16AX => Sys2Proof.Machine.execGet16AX s
  | .get16BX => Sys2Proof.Machine.execGet16BX s
  | .get16CX => Sys2Proof.Machine.execGet16CX s
  | .get16SP => Sys2Proof.Machine.execGet16SP s
  | .get16BP => Sys2Proof.Machine.execGet16BP s
  | .get16DI => Sys2Proof.Machine.execGet16DI s
  | .get16SI => Sys2Proof.Machine.execGet16SI s
  | .get16DX => Sys2Proof.Machine.execGet16DX s
  | .get32EAX => Sys2Proof.Machine.execGet32EAX s
  | .get32EBX => Sys2Proof.Machine.execGet32EBX s
  | .get32ECX => Sys2Proof.Machine.execGet32ECX s
  | .get32ESP => Sys2Proof.Machine.execGet32ESP s
  | .get32EBP => Sys2Proof.Machine.execGet32EBP s
  | .get32EDI => Sys2Proof.Machine.execGet32EDI s
  | .get32ESI => Sys2Proof.Machine.execGet32ESI s
  | .get32EDX => Sys2Proof.Machine.execGet32EDX s
  | .get64RAX => Sys2Proof.Machine.execGet64RAX s
  | .get64RBX => Sys2Proof.Machine.execGet64RBX s
  | .get64RCX => Sys2Proof.Machine.execGet64RCX s
  | .get64RSP => Sys2Proof.Machine.execGet64RSP s
  | .get64RBP => Sys2Proof.Machine.execGet64RBP s
  | .get64RDI => Sys2Proof.Machine.execGet64RDI s
  | .get64RSI => Sys2Proof.Machine.execGet64RSI s
  | .get64RDX => Sys2Proof.Machine.execGet64RDX s
  | .set8AL v => Sys2Proof.Machine.execSet8AL v s
  | .set8BL v => Sys2Proof.Machine.execSet8BL v s
  | .set8CL v => Sys2Proof.Machine.execSet8CL v s
  | .set8DL v => Sys2Proof.Machine.execSet8DL v s
  | .set8AH v => Sys2Proof.Machine.execSet8AH v s
  | .set8BH v => Sys2Proof.Machine.execSet8BH v s
  | .set8CH v => Sys2Proof.Machine.execSet8CH v s
  | .set8SPL v => Sys2Proof.Machine.execSet8SPL v s
  | .set8BPL v => Sys2Proof.Machine.execSet8BPL v s
  | .set8DIL v => Sys2Proof.Machine.execSet8DIL v s
  | .set8SIL v => Sys2Proof.Machine.execSet8SIL v s
  | .set8DH v => Sys2Proof.Machine.execSet8DH v s
  | .set16AX v => Sys2Proof.Machine.execSet16AX v s
  | .set16BX v => Sys2Proof.Machine.execSet16BX v s
  | .set16CX v => Sys2Proof.Machine.execSet16CX v s
  | .set16SP v => Sys2Proof.Machine.execSet16SP v s
  | .set16BP v => Sys2Proof.Machine.execSet16BP v s
  | .set16DI v => Sys2Proof.Machine.execSet16DI v s
  | .set16SI v => Sys2Proof.Machine.execSet16SI v s
  | .set16DX v => Sys2Proof.Machine.execSet16DX v s
  | .set32EAX v => Sys2Proof.Machine.execSet32EAX v s
  | .set32EBX v => Sys2Proof.Machine.execSet32EBX v s
  | .set32ECX v => Sys2Proof.Machine.execSet32ECX v s
  | .set32ESP v => Sys2Proof.Machine.execSet32ESP v s
  | .set32EBP v => Sys2Proof.Machine.execSet32EBP v s
  | .set32EDI v => Sys2Proof.Machine.execSet32EDI v s
  | .set32ESI v => Sys2Proof.Machine.execSet32ESI v s
  | .set32EDX v => Sys2Proof.Machine.execSet32EDX v s
  | .set64RAX v => Sys2Proof.Machine.execSet64RAX v s
  | .set64RBX v => Sys2Proof.Machine.execSet64RBX v s
  | .set64RCX v => Sys2Proof.Machine.execSet64RCX v s
  | .set64RSP v => Sys2Proof.Machine.execSet64RSP v s
  | .set64RBP v => Sys2Proof.Machine.execSet64RBP v s
  | .set64RDI v => Sys2Proof.Machine.execSet64RDI v s
  | .set64RSI v => Sys2Proof.Machine.execSet64RSI v s
  | .set64RDX v => Sys2Proof.Machine.execSet64RDX v s

end Sys2Proof.Machine
end

