-- ==== Sys2Proof/Machine/Port.lean ====
section
/-! DEFINITION. One cycle of the command port: the priority of R134 and the binary step of R131. -/

namespace Sys2Proof.Machine

open Host (Outcome)

/-- A presented command word (R131): the decoded instruction, or `IllegalCommand` with the word's header. -/
def stepBinary (cw : CmdWord) (s : State) : Outcome State Fault Refusal :=
  match decode cw with
  | .ok i => exec i s
  | .error _ => .next (takeIllegalCommand cw.header s)

/-- One cycle with the input ports at `p`, in the order of R134: reset, then idle, then the word. -/
def cycle (p : PortIn) (s : State) : Outcome State Fault Refusal :=
  if p.rst then .next (resetCycle s)
  else if p.cmdValid then stepBinary p.cmd s
  else .next (idleCycle s)

end Sys2Proof.Machine
end

