-- ==== Sys2Proof/Machine/Step.lean ====
section
/-! DEFINITION. `step`: one cycle of the clock (assumption 4), with the input ports as the engine drives them. -/

namespace Sys2Proof.Machine

/-- One step: this cycle's inputs are taken and the cycle runs (R17, R134, R157). -/
def step (s : State) : Host.Outcome State Fault Refusal := cycle s.portIn s.afterPortIn

/-- `s` with the engine presenting the opcode-table word `w` in the very next cycle (assumption 6). -/
def State.withFetchWord (s : State) (nbits w : Nat) : State := s.presentNext (tableWord nbits w)

end Sys2Proof.Machine
end

