-- ==== Sys2Proof/Machine/Datapath.lean ====
section
/-! DEFINITION. The block as wires: the ports of R62 and R98 with the header fields used directly as selects (the end of R70:
`View(ident) = (id[2:0], 8 * (id[3] and wc == 0), 8 << wc)`), no typed command anywhere. It is a second description of one cycle, written
from R62, R70, R72, R74, R98, R151 and R157; the model is `step`, and a statement says that the two agree. -/

namespace Sys2Proof.Machine.Datapath

/-- `id[2:0]`, the cell index. -/
def cellIndex (h : Header) : BitVec 3 := h.id.extractLsb' 0 3

/-- The masking unit's byte select `hi`: 1 only when `wc = 0` and `id[3] = 1` (R98). -/
def byteSelect (h : Header) : Bool := h.id.getLsbD 3 && decide (h.wc = 0#2)

/-- `op = 1`, a set (R64). -/
def isSet (h : Header) : Bool := decide (h.op = 1#1)

/-- The cell the word selects: `x[id[2:0]]`. -/
def selected (h : Header) (x : Cells) : Word := x.read (Role.ofIndex (cellIndex h))

/-- The read path: the selected cell shifted right by the offset and masked to the width; it is already zero above the width (R92, R74). -/
def readBus (h : Header) (x : Cells) : Word :=
  (selected h x >>> offsetOfSelect (byteSelect h)) &&& lowMask (widthOfCode h.wc)

/-- The write path: the masking unit's port `new` (R98). -/
def writeBus (h : Header) (data : Word) (x : Cells) : Word :=
  maskingUnit (selected h x) data h.wc (byteSelect h)

/-- A legal command is performed in this cycle (R131, R134). -/
def go (p : PortIn) : Bool := !p.rst && p.cmdValid && !p.cmd.header.reserved

/-- The word is answered with an error (R131). -/
def refuse (p : PortIn) : Bool := !p.rst && p.cmdValid && p.cmd.header.reserved

/-- The cells after the edge that ends the cycle: zero in reset, one cell written by a legal set, else as they were (R98, R151). -/
def nextCells (p : PortIn) (x : Cells) : Cells :=
  if p.rst then Cells.zero
  else if go p && isSet p.cmd.header then
    x.write (Role.ofIndex (cellIndex p.cmd.header)) (writeBus p.cmd.header p.cmd.data x)
  else x

/-- The response ports, combinational in the cycle (R74, R157). -/
def response (p : PortIn) (x : Cells) : Response :=
  ⟨!p.rst && p.cmdValid, refuse p, if go p && !isSet p.cmd.header then readBus p.cmd.header x else 0#64⟩

/-- The model's record of faults after the cycle (R137). -/
def nextFaults (p : PortIn) (fs : List Fault) : List Fault :=
  if refuse p then fs ++ [.illegalCommand p.cmd.header] else fs

/-- One cycle of the wired block. -/
def nextState (s : State) : State :=
  { cells := nextCells s.portIn s.cells
    inputs := s.inputs.tail
    rsp := response s.portIn s.cells
    faults := nextFaults s.portIn s.faults }

end Sys2Proof.Machine.Datapath
end

