-- ==== Sys2Proof/Machine/Text.lean ====
section
/-! DEFINITION. The textual syntax (R79): call notation, sequences, the test harness's assertion, and the refusal of ill-formed text, which
"denotes no command: the textual assembler refuses it, it is never truncated silently". What R79 leaves open (spaces, the case of
hexadecimal digits, underscores, empty pieces, mixed separators) is assumption 11, and how much of a sequence a refusal takes with it is assumption 14. -/

namespace Sys2Proof.Text

/-! ## Mnemonics (R22 to R25, R79) -/

/-- The mnemonic of an operation (R60). -/
def opName : Op → WidthClass → List Char
  | .get, .w64 => "get64".toList
  | .get, .w32 => "get32".toList
  | .get, .w16 => "get16".toList
  | .get, .w8 => "get8".toList
  | .set, .w64 => "set64".toList
  | .set, .w32 => "set32".toList
  | .set, .w16 => "set16".toList
  | .set, .w8 => "set8".toList

/-- The eight operations (R81). -/
def operations : List (Op × WidthClass) :=
  [(.get, .w64), (.get, .w32), (.get, .w16), (.get, .w8), (.set, .w64), (.set, .w32), (.set, .w16), (.set, .w8)]

/-- The mnemonic of an identifier (R22 to R25). -/
def idName : AnyId → List Char
  | .id64 .rax => "RAX".toList
  | .id64 .rbx => "RBX".toList
  | .id64 .rcx => "RCX".toList
  | .id64 .rsp => "RSP".toList
  | .id64 .rbp => "RBP".toList
  | .id64 .rdi => "RDI".toList
  | .id64 .rsi => "RSI".toList
  | .id64 .rdx => "RDX".toList
  | .id32 .eax => "EAX".toList
  | .id32 .ebx => "EBX".toList
  | .id32 .ecx => "ECX".toList
  | .id32 .esp => "ESP".toList
  | .id32 .ebp => "EBP".toList
  | .id32 .edi => "EDI".toList
  | .id32 .esi => "ESI".toList
  | .id32 .edx => "EDX".toList
  | .id16 .ax => "AX".toList
  | .id16 .bx => "BX".toList
  | .id16 .cx => "CX".toList
  | .id16 .sp => "SP".toList
  | .id16 .bp => "BP".toList
  | .id16 .di => "DI".toList
  | .id16 .si => "SI".toList
  | .id16 .dx => "DX".toList
  | .id8 .al => "AL".toList
  | .id8 .bl => "BL".toList
  | .id8 .cl => "CL".toList
  | .id8 .dl => "DL".toList
  | .id8 .ah => "AH".toList
  | .id8 .bh => "BH".toList
  | .id8 .ch => "CH".toList
  | .id8 .spl => "SPL".toList
  | .id8 .bpl => "BPL".toList
  | .id8 .dil => "DIL".toList
  | .id8 .sil => "SIL".toList
  | .id8 .dh => "DH".toList

/-- The identifiers of the 64-bit class (R22). -/
def ids64 : List Id64 :=
  [.rax, .rbx, .rcx, .rsp, .rbp, .rdi, .rsi, .rdx]

/-- The identifiers of the 32-bit class (R23). -/
def ids32 : List Id32 :=
  [.eax, .ebx, .ecx, .esp, .ebp, .edi, .esi, .edx]

/-- The identifiers of the 16-bit class (R24). -/
def ids16 : List Id16 :=
  [.ax, .bx, .cx, .sp, .bp, .di, .si, .dx]

/-- The identifiers of the 8-bit class (R25). -/
def ids8 : List Id8 :=
  [.al, .bl, .cl, .dl, .ah, .bh, .ch, .spl, .bpl, .dil, .sil, .dh]

/-- The 36 identifiers, class by class (R22 to R25). -/
def identifiers : List AnyId :=
  List.append (ids64.map AnyId.id64) (List.append (ids32.map AnyId.id32)
    (List.append (ids16.map AnyId.id16) (ids8.map AnyId.id8)))

/-! ## Tokens -/

/-- A token of the textual syntax; `sep` ends a command (a line end or `;`, R79). -/
inductive Token where
  | word (cs : List Char)
  | lparen
  | rparen
  | comma
  | eqeq
  | sep
deriving DecidableEq, Repr

/-- A letter, a digit or an underscore. -/
def isWordChar (c : Char) : Bool :=
  decide (48 ≤ c.toNat ∧ c.toNat ≤ 57) || decide (65 ≤ c.toNat ∧ c.toNat ≤ 90) || decide (97 ≤ c.toNat ∧ c.toNat ≤ 122) || decide (c = '_')

/-- The tokens of one character. A line end and `;` are one and the same separator. R79 gives two ways to write a sequence, one command a
line or on one line with `;`, and does not say whether one text may mix them: that any mixture is accepted is the model's choice (DESIGN
CHOICE, assumption 11). -/
def symbol (c : Char) : Option Token :=
  if c = '(' then some .lparen
  else if c = ')' then some .rparen
  else if c = ',' then some .comma
  else if c = ';' ∨ c = '\n' then some .sep
  else none

/-- The word read so far, if any, before the tokens after it. -/
def closeWord (acc : List Char) (ts : List Token) : List Token :=
  if acc.isEmpty then ts else .word acc.reverse :: ts

/-- Text to tokens; `acc` holds the current word, last character first, and `eq` says that one `=` has just been read. A space ends a
word. -/
def lex : List Char → List Char → Bool → Option (List Token)
  | [], acc, eq => if eq then none else some (closeWord acc [])
  | c :: cs, acc, eq =>
    if eq then (if c = '=' then (lex cs [] false).map (Token.eqeq :: ·) else none)
    else if isWordChar c then lex cs (c :: acc) false
    else if c = '=' then (lex cs [] true).map (closeWord acc)
    else if c = ' ' then (lex cs [] false).map (closeWord acc)
    else
      match symbol c with
      | some t => (lex cs [] false).map fun ts => closeWord acc (t :: ts)
      | none => none

/-! ## Numerals (R11, R79) -/

/-- The value of a hexadecimal digit. -/
def hexDigit (c : Char) : Option Nat :=
  if 48 ≤ c.toNat ∧ c.toNat ≤ 57 then some (c.toNat - 48)
  else if 65 ≤ c.toNat ∧ c.toNat ≤ 70 then some (c.toNat - 55)
  else if 97 ≤ c.toNat ∧ c.toNat ≤ 102 then some (c.toNat - 87)
  else none

/-- The digits of a numeral, most significant first; an underscore is a visual separator only (R11). -/
def hexValue : List Char → Nat → Option Nat
  | [], n => some n
  | c :: cs, n =>
    if c = '_' then hexValue cs n
    else
      match hexDigit c with
      | some d => hexValue cs (16 * n + d)
      | none => none

/-- A hexadecimal numeral: the prefix `0x`, then a digit, then more digits (R11, R79). -/
def numeral : List Char → Option Nat
  | a :: b :: c :: cs => if a = '0' ∧ b = 'x' ∧ (hexDigit c).isSome then hexValue (c :: cs) 0 else none
  | _ => none

/-! ## Commands -/

/-- Why text is refused (R79). -/
inductive TextError where
  /-- A character that is in no token. -/
  | badCharacter
  /-- A piece that has the form of no command. -/
  | badForm
  /-- A word that is no operation of R81. -/
  | unknownOperation
  /-- A word that is no identifier of R22 to R25. -/
  | unknownMnemonic
  /-- A value that is no hexadecimal numeral. -/
  | badNumeral
  /-- An identifier of another class than the operation's. -/
  | wrongClass
  /-- A set without a value, or a get with one. -/
  | wrongOperands
  /-- A value that does not fit in `W` bits. -/
  | valueTooWide
deriving DecidableEq, Repr

/-- One command of a text, with the value the test harness expects of it, if the text states one (R79: `getW(ID) == value`; the
`== value` part is not part of the command). -/
structure Item where
  command : Command
  expected : Option Nat
deriving DecidableEq, Repr

/-- A value to compare stands only beside a get, and fits in the get's width (R79, assumption 11). -/
def Item.wellFormed (x : Item) : Bool :=
  match x.expected with
  | none => true
  | some e => decide (x.command.raw.op = .get) && decide (e < 2 ^ x.command.raw.width.bits)

/-- The operation a word names. -/
def findOp (w : List Char) : Option (Op × WidthClass) := operations.find? fun o => opName o.1 o.2 = w

/-- The identifier a word names. -/
def findId (w : List Char) : Option AnyId := identifiers.find? fun i => idName i = w

/-- The typed command of a raw one, by its operation and identifier: a command only where the three checks of
`RawCommand.wellFormed` pass. -/
def typed (r : RawCommand) : Except TextError Command :=
  if r.identInClass = false then .error .wrongClass
  else if r.valueShape = false then .error .wrongOperands
  else if r.valueFits = false then .error .valueTooWide
  else
    match r.ident, r.value with
    | .id64 id, none => .ok (.get64 id)
    | .id32 id, none => .ok (.get32 id)
    | .id16 id, none => .ok (.get16 id)
    | .id8 id, none => .ok (.get8 id)
    | .id64 id, some v => .ok (.set64 id (BitVec.ofNat 64 v))
    | .id32 id, some v => .ok (.set32 id (BitVec.ofNat 32 v))
    | .id16 id, some v => .ok (.set16 id (BitVec.ofNat 16 v))
    | .id8 id, some v => .ok (.set8 id (BitVec.ofNat 8 v))

/-- The raw command of an operation word, an identifier word and a value, if there is one. -/
def rawOf (op id : List Char) (value : Option Nat) : Except TextError RawCommand :=
  match findOp op with
  | none => .error .unknownOperation
  | some o =>
    match findId id with
    | none => .error .unknownMnemonic
    | some i => .ok ⟨o.1, o.2, i, value⟩

/-- The typed command of those words (R79). -/
def commandOf (op id : List Char) (value : Option Nat) : Except TextError Command :=
  match rawOf op id value with
  | .error e => .error e
  | .ok r => typed r

/-- The item of a command and the harness's value, if there is one: only a get returns a value to compare, and the value fits in
the get's width (R79). -/
def itemOf (k : Command) (expected : Option Nat) : Except TextError Item :=
  match expected with
  | none => .ok ⟨k, none⟩
  | some e =>
    match k.raw.op with
    | .set => .error .badForm
    | .get => if e < 2 ^ k.raw.width.bits then .ok ⟨k, some e⟩ else .error .valueTooWide

/-- The command of one piece of text (R79): `getW(ID)`, `setW(ID, value)`, or `getW(ID) == value`. -/
def parsePiece : List Token → Except TextError Item
  | [.word op, .lparen, .word id, .rparen] =>
    match commandOf op id none with
    | .error e => .error e
    | .ok k => itemOf k none
  | [.word op, .lparen, .word id, .comma, .word v, .rparen] =>
    match numeral v with
    | none => .error .badNumeral
    | some n =>
      match commandOf op id (some n) with
      | .error e => .error e
      | .ok k => itemOf k none
  | [.word op, .lparen, .word id, .rparen, .eqeq, .word v] =>
    match numeral v with
    | none => .error .badNumeral
    | some n =>
      match commandOf op id none with
      | .error e => .error e
      | .ok k => itemOf k (some n)
  | _ => .error .badForm

/-- The pieces between separators. -/
def pieces : List Token → List (List Token)
  | [] => [[]]
  | t :: ts =>
    match pieces ts with
    | [] => [[]]
    | p :: ps => if t = .sep then [] :: p :: ps else (t :: p) :: ps

/-- The commands of a list of pieces, in order, or the first refusal. R79 says that an ill-formed command denotes no command and is
refused, and does not say what becomes of the commands beside it: that one refusal refuses the whole sequence, the well-formed commands
with it, is the model's choice (DESIGN CHOICE, assumption 14). -/
def parsePieces : List (List Token) → Except TextError (List Item)
  | [] => .ok []
  | p :: ps =>
    match parsePiece p with
    | .error e => .error e
    | .ok k =>
      match parsePieces ps with
      | .error e => .error e
      | .ok ks => .ok (k :: ks)

/-- The assembler: a text is a sequence of commands, one a line or separated by `;` (R79). It refuses ill-formed text by name, as a whole
and with one name (DESIGN CHOICE, assumption 14). -/
def assemble (text : List Char) : Except TextError (List Item) :=
  match lex text [] false with
  | none => .error .badCharacter
  | some ts => parsePieces ((pieces ts).filter fun p => !p.isEmpty)

/-- The command words of a text (R71, R79). -/
def assembleWords (text : List Char) : Except TextError (List CmdWord) :=
  match assemble text with
  | .error e => .error e
  | .ok items => .ok (items.map fun k => encodeCommand k.command)

/-! ## Printing -/

/-- The upper-case hexadecimal digit of a value below 16. -/
def digitChar (d : Nat) : Char := if d < 10 then Char.ofNat (48 + d) else Char.ofNat (55 + d)

/-- `n` hexadecimal digits of a value, most significant first. -/
def hexDigits : Nat → Nat → List Char
  | 0, _ => []
  | n + 1, v => digitChar (v / 16 ^ n % 16) :: hexDigits n v

/-- The value of a set as text: a comma, a space, the prefix `0x` and all the digits of its width (R79). -/
def renderValue (width : WidthClass) : Option Nat → List Char
  | none => []
  | some v => ',' :: ' ' :: '0' :: 'x' :: hexDigits (width.bits / 4) v

/-- A typed command as text (R79). -/
def render (k : Command) : List Char :=
  opName k.raw.op k.raw.width ++ '(' :: (idName k.raw.ident ++ (renderValue k.raw.width k.raw.value ++ [')']))

/-- The harness's value as text: `==`, a space, the prefix `0x` and all the digits of the get's width (R79). -/
def renderExpected (width : WidthClass) : Option Nat → List Char
  | none => []
  | some e => ' ' :: '=' :: '=' :: ' ' :: '0' :: 'x' :: hexDigits (width.bits / 4) e

/-- A command as text with the harness's value, if there is one: `getW(ID) == value` (R79). -/
def renderItem (x : Item) : List Char :=
  render x.command ++ renderExpected x.command.raw.width x.expected

/-- A sequence as text, with `sep` between two commands: a line end or `;` (R79). -/
def renderSeq (sep : List Char) : List Item → List Char
  | [] => []
  | [x] => renderItem x
  | x :: y :: xs => renderItem x ++ (sep ++ renderSeq sep (y :: xs))

end Sys2Proof.Text
end

