-- ==== Sys2Proof/Safety.lean ====
section
/-! DEFINITION. What claims are made in: the shape of a response (R74), runs and their results (R154), safe runs (R137), the invariant of
the model's record of faults, and the history of one bit of a cell (R49). -/

namespace Sys2Proof.Machine

/-- The shape every row of R74 has: without `rsp_valid` nothing else is set, and with `rsp_err` the data is 0. -/
def Response.wellFormed (r : Response) : Bool :=
  (r.valid || (!r.err && decide (r.data = 0#64))) && (!r.err || decide (r.data = 0#64))

/-- The invariant of a state: the last response has a shape of R74, and an error response has its fault on record (R137). -/
def State.inv (s : State) : Bool :=
  s.rsp.wellFormed && (!s.rsp.err || !s.faults.isEmpty)

/-- No fault is recorded (R137). -/
def State.faultFree (s : State) : Bool := s.faults.isEmpty

/-- In this cycle the engine issues nothing that is no operation: no reserved header is presented (R131). -/
def PortIn.safe (p : PortIn) : Bool := p.rst || !p.cmdValid || !p.cmd.header.reserved

/-- The engine issues no reserved header in any coming cycle: what a safe run asks of it (R137). -/
def State.safeInputs (s : State) : Bool := s.inputs.all PortIn.safe

/-- A run: `n` steps (R154). -/
def runSteps (n : Nat) (s : State) : Host.Outcome State Fault Refusal := Host.Core.run Sys2Proof.core n s

/-- A run to the end of what the engine issues: the cells then are its result (R154). -/
def runInputs (s : State) : Host.Outcome State Fault Refusal := runSteps s.inputs.length s

/-- The responses returned along the way of a run of `n` steps, oldest first: the rest of its result (R154). -/
def responsesOf : Nat → State → List Response
  | 0, _ => []
  | n + 1, s =>
    match step s with
    | .next t => t.rsp :: responsesOf n t
    | .fault _ => []
    | .refused _ => []

/-- The same at the typed level: the cells and the results of a list of typed commands applied in order (R17, R49). -/
def runTyped : List Command → Cells → Cells × List TypedResult
  | [], x => (x, [])
  | k :: ks, x =>
    let r := applyTyped k x
    let rest := runTyped ks r.1
    (rest.1, r.2 :: rest.2)

/-- What one cycle makes of bit `j` of cell `c`, said bit by bit and with no mask: 0 in reset, the value's bit where a presented legal
set covers the bit, else the bit it was (R49, R93, R110, R151). -/
def bitAfterCycle (c : Role) (j : Nat) (b : Bool) (p : PortIn) : Bool :=
  if p.rst then false
  else if p.cmdValid then
    match decode p.cmd with
    | .error _ => b
    | .ok i => if i.op = .set ∧ i.view.cell = c ∧ i.view.covers j then i.value.getLsbD (j - i.view.off) else b
  else b

/-- Bit `j` of cell `c` after a list of cycles, from the bit it was: the last set that covers it, or a reset, decides (R49). -/
def bitHistory (c : Role) (j : Nat) (b : Bool) (ps : List PortIn) : Bool := ps.foldl (bitAfterCycle c j) b

/-- The cycle presents a legal get and no reset: what an inspecting collaborator issues (R144). -/
def PortIn.isGet (p : PortIn) : Bool :=
  match decode p.cmd with
  | .ok i => !p.rst && p.cmdValid && decide (i.op = .get)
  | .error _ => false

/-- The faults a cycle records (R131). -/
def PortIn.faults (p : PortIn) : List Fault := if p.safe then [] else [.illegalCommand p.cmd.header]

end Sys2Proof.Machine
end

