-- ==== Sys2Proof/Certificates/Slice0/Obligations.lean ====
section
/-! DEFINITION. The statements for the provers, and the row forms, the list and the piece form they are written with. -/

namespace Sys2Proof.Claims

open Sys2Proof.Machine

/-- One get of the opcode table: its header `h`, whatever the data field, decodes to `i`, and `i` answers, in every state, the state with
only the response changed, to `(1, 0, result)`. -/
def GetRow (h : Header) (i : Instr) (result : Cells → Word) : Prop :=
  (∀ data : Word, decode (CmdWord.make h data) = .ok i) ∧
  (∀ s : State, exec i s = .next { s with rsp := ⟨true, false, result s.cells⟩ })

/-- One set of the opcode table: its header `h` with any data field decodes to `i` with the value `data[W-1:0]`, and `i v` answers, in
every state, the state with only the cells and the response changed, to `after` and `(1, 0, 0)`. -/
def SetRow (W : Nat) (h : Header) (i : BitVec W → Instr) (after : Cells → BitVec W → Cells) : Prop :=
  (∀ data : Word, decode (CmdWord.make h data) = .ok (i (data.setWidth W))) ∧
  (∀ (v : BitVec W) (s : State), exec (i v) s = .next { s with cells := after s.cells v, rsp := ⟨true, false, 0#64⟩ })

/-- The reserved headers as R72 lists them, by ranges. -/
def reservedList : List Nat :=
  [0x03, 0x04, 0x05, 0x06, 0x18, 0x19, 0x1A, 0x1B, 0x1C, 0x1D, 0x1E, 0x1F, 0x28, 0x29, 0x2A, 0x2B, 0x2C, 0x2D, 0x2E, 0x2F,
   0x38, 0x39, 0x3A, 0x3B, 0x3C, 0x3D, 0x3E, 0x3F, 0x43, 0x44, 0x45, 0x46, 0x58, 0x59, 0x5A, 0x5B, 0x5C, 0x5D, 0x5E, 0x5F,
   0x68, 0x69, 0x6A, 0x6B, 0x6C, 0x6D, 0x6E, 0x6F, 0x78, 0x79, 0x7A, 0x7B, 0x7C, 0x7D, 0x7E, 0x7F]

/-- The piece `p` of a text has one of the three forms of R79 for the command and the compared value of `x`: `getW(ID)`,
`setW(ID, value)`, or `getW(ID) == value` with a value that fits in the width. -/
def PieceOf (p : List Text.Token) (x : Text.Item) : Prop :=
  let op : Text.Token := .word (Text.opName x.command.raw.op x.command.raw.width)
  let id : Text.Token := .word (Text.idName x.command.raw.ident)
  (x.command.raw.value = none ∧ x.expected = none ∧ p = [op, .lparen, id, .rparen]) ∨
  (∃ v n, x.command.raw.value = some n ∧ x.expected = none ∧ Text.numeral v = some n ∧
    p = [op, .lparen, id, .comma, .word v, .rparen]) ∨
  (∃ v n, x.command.raw.value = none ∧ x.expected = some n ∧ n < 2 ^ x.command.raw.width.bits ∧ Text.numeral v = some n ∧
    p = [op, .lparen, id, .rparen, .eqeq, .word v])

end Sys2Proof.Claims

open Sys2Proof Sys2Proof.Machine Sys2Proof.Claims

/-- For each of the eight identifiers of the 64-bit class (RAX, RBX, RCX, RSP, RBP, RDI, RSI, RDX): every word with its header,
whatever the data field, decodes to its instruction, and in every state that instruction answers a next state in which only the
response differs: (1, 0, the whole cell). No cell, no coming input and no record of a fault changes. (R101.) -/
def Obligations.Get64ReturnsItsBits : Prop :=
  GetRow 0x30#7 .get64RAX (fun x => x.accumulator) ∧
  GetRow 0x31#7 .get64RBX (fun x => x.base) ∧
  GetRow 0x32#7 .get64RCX (fun x => x.counter) ∧
  GetRow 0x33#7 .get64RSP (fun x => x.stackPointer) ∧
  GetRow 0x34#7 .get64RBP (fun x => x.stackBasePointer) ∧
  GetRow 0x35#7 .get64RDI (fun x => x.destination) ∧
  GetRow 0x36#7 .get64RSI (fun x => x.source) ∧
  GetRow 0x37#7 .get64RDX (fun x => x.data)

/-- For each of the eight identifiers of the 32-bit class (EAX, EBX, ECX, ESP, EBP, EDI, ESI, EDX): every word with its header,
whatever the data field, decodes to its instruction, and in every state that instruction answers a next state in which only the
response differs: (1, 0, bits 31:0 of the cell, widened with zeros). No cell, no coming input and no record of a fault changes.
(R102.) -/
def Obligations.Get32ReturnsItsBits : Prop :=
  GetRow 0x20#7 .get32EAX (fun x => (x.accumulator.extractLsb' 0 32).setWidth 64) ∧
  GetRow 0x21#7 .get32EBX (fun x => (x.base.extractLsb' 0 32).setWidth 64) ∧
  GetRow 0x22#7 .get32ECX (fun x => (x.counter.extractLsb' 0 32).setWidth 64) ∧
  GetRow 0x23#7 .get32ESP (fun x => (x.stackPointer.extractLsb' 0 32).setWidth 64) ∧
  GetRow 0x24#7 .get32EBP (fun x => (x.stackBasePointer.extractLsb' 0 32).setWidth 64) ∧
  GetRow 0x25#7 .get32EDI (fun x => (x.destination.extractLsb' 0 32).setWidth 64) ∧
  GetRow 0x26#7 .get32ESI (fun x => (x.source.extractLsb' 0 32).setWidth 64) ∧
  GetRow 0x27#7 .get32EDX (fun x => (x.data.extractLsb' 0 32).setWidth 64)

/-- For each of the eight identifiers of the 16-bit class (AX, BX, CX, SP, BP, DI, SI, DX): every word with its header, whatever
the data field, decodes to its instruction, and in every state that instruction answers a next state in which only the response
differs: (1, 0, bits 15:0 of the cell, widened with zeros). No cell, no coming input and no record of a fault changes. (R103.) -/
def Obligations.Get16ReturnsItsBits : Prop :=
  GetRow 0x10#7 .get16AX (fun x => (x.accumulator.extractLsb' 0 16).setWidth 64) ∧
  GetRow 0x11#7 .get16BX (fun x => (x.base.extractLsb' 0 16).setWidth 64) ∧
  GetRow 0x12#7 .get16CX (fun x => (x.counter.extractLsb' 0 16).setWidth 64) ∧
  GetRow 0x13#7 .get16SP (fun x => (x.stackPointer.extractLsb' 0 16).setWidth 64) ∧
  GetRow 0x14#7 .get16BP (fun x => (x.stackBasePointer.extractLsb' 0 16).setWidth 64) ∧
  GetRow 0x15#7 .get16DI (fun x => (x.destination.extractLsb' 0 16).setWidth 64) ∧
  GetRow 0x16#7 .get16SI (fun x => (x.source.extractLsb' 0 16).setWidth 64) ∧
  GetRow 0x17#7 .get16DX (fun x => (x.data.extractLsb' 0 16).setWidth 64)

/-- For each of the twelve identifiers of the 8-bit class (AL, BL, CL, DL, AH, BH, CH, SPL, BPL, DIL, SIL, DH): every word with
its header, whatever the data field, decodes to its instruction, and in every state that instruction answers a next state in which
only the response differs: (1, 0, bits 7:0 of the cell (AL, BL, CL, DL) or bits 15:8 (the other eight), widened with zeros). No
cell, no coming input and no record of a fault changes. (R104.) -/
def Obligations.Get8ReturnsItsBits : Prop :=
  GetRow 0x00#7 .get8AL (fun x => (x.accumulator.extractLsb' 0 8).setWidth 64) ∧
  GetRow 0x01#7 .get8BL (fun x => (x.base.extractLsb' 0 8).setWidth 64) ∧
  GetRow 0x02#7 .get8CL (fun x => (x.counter.extractLsb' 0 8).setWidth 64) ∧
  GetRow 0x07#7 .get8DL (fun x => (x.data.extractLsb' 0 8).setWidth 64) ∧
  GetRow 0x08#7 .get8AH (fun x => (x.accumulator.extractLsb' 8 8).setWidth 64) ∧
  GetRow 0x09#7 .get8BH (fun x => (x.base.extractLsb' 8 8).setWidth 64) ∧
  GetRow 0x0A#7 .get8CH (fun x => (x.counter.extractLsb' 8 8).setWidth 64) ∧
  GetRow 0x0B#7 .get8SPL (fun x => (x.stackPointer.extractLsb' 8 8).setWidth 64) ∧
  GetRow 0x0C#7 .get8BPL (fun x => (x.stackBasePointer.extractLsb' 8 8).setWidth 64) ∧
  GetRow 0x0D#7 .get8DIL (fun x => (x.destination.extractLsb' 8 8).setWidth 64) ∧
  GetRow 0x0E#7 .get8SIL (fun x => (x.source.extractLsb' 8 8).setWidth 64) ∧
  GetRow 0x0F#7 .get8DH (fun x => (x.data.extractLsb' 8 8).setWidth 64)

/-- For each of the eight identifiers of the 64-bit class (RAX, RBX, RCX, RSP, RBP, RDI, RSI, RDX): every word with its header
decodes to its instruction with the value data[63:0], and in every state and for every value v that instruction answers a next
state in which only one cell and the response differ: the cell becomes v, and the response is (1, 0, 0). (R111.) -/
def Obligations.Set64WritesItsBits : Prop :=
  SetRow 64 0x70#7 .set64RAX (fun x v => { x with accumulator := v }) ∧
  SetRow 64 0x71#7 .set64RBX (fun x v => { x with base := v }) ∧
  SetRow 64 0x72#7 .set64RCX (fun x v => { x with counter := v }) ∧
  SetRow 64 0x73#7 .set64RSP (fun x v => { x with stackPointer := v }) ∧
  SetRow 64 0x74#7 .set64RBP (fun x v => { x with stackBasePointer := v }) ∧
  SetRow 64 0x75#7 .set64RDI (fun x v => { x with destination := v }) ∧
  SetRow 64 0x76#7 .set64RSI (fun x v => { x with source := v }) ∧
  SetRow 64 0x77#7 .set64RDX (fun x v => { x with data := v })

/-- For each of the eight identifiers of the 32-bit class (EAX, EBX, ECX, ESP, EBP, EDI, ESI, EDX): every word with its header
decodes to its instruction with the value data[31:0], and in every state and for every value v that instruction answers a next
state in which only one cell and the response differ: the cell becomes its bits 63:32 followed by v, and the response is (1, 0,
0). (R112.) -/
def Obligations.Set32WritesItsBits : Prop :=
  SetRow 32 0x60#7 .set32EAX (fun x v => { x with accumulator := (x.accumulator.extractLsb' 32 32 ++ v : BitVec 64) }) ∧
  SetRow 32 0x61#7 .set32EBX (fun x v => { x with base := (x.base.extractLsb' 32 32 ++ v : BitVec 64) }) ∧
  SetRow 32 0x62#7 .set32ECX (fun x v => { x with counter := (x.counter.extractLsb' 32 32 ++ v : BitVec 64) }) ∧
  SetRow 32 0x63#7 .set32ESP (fun x v => { x with stackPointer := (x.stackPointer.extractLsb' 32 32 ++ v : BitVec 64) }) ∧
  SetRow 32 0x64#7 .set32EBP (fun x v => { x with stackBasePointer := (x.stackBasePointer.extractLsb' 32 32 ++ v : BitVec 64) }) ∧
  SetRow 32 0x65#7 .set32EDI (fun x v => { x with destination := (x.destination.extractLsb' 32 32 ++ v : BitVec 64) }) ∧
  SetRow 32 0x66#7 .set32ESI (fun x v => { x with source := (x.source.extractLsb' 32 32 ++ v : BitVec 64) }) ∧
  SetRow 32 0x67#7 .set32EDX (fun x v => { x with data := (x.data.extractLsb' 32 32 ++ v : BitVec 64) })

/-- For each of the eight identifiers of the 16-bit class (AX, BX, CX, SP, BP, DI, SI, DX): every word with its header decodes to
its instruction with the value data[15:0], and in every state and for every value v that instruction answers a next state in which
only one cell and the response differ: the cell becomes its bits 63:16 followed by v, and the response is (1, 0, 0). (R113.) -/
def Obligations.Set16WritesItsBits : Prop :=
  SetRow 16 0x50#7 .set16AX (fun x v => { x with accumulator := (x.accumulator.extractLsb' 16 48 ++ v : BitVec 64) }) ∧
  SetRow 16 0x51#7 .set16BX (fun x v => { x with base := (x.base.extractLsb' 16 48 ++ v : BitVec 64) }) ∧
  SetRow 16 0x52#7 .set16CX (fun x v => { x with counter := (x.counter.extractLsb' 16 48 ++ v : BitVec 64) }) ∧
  SetRow 16 0x53#7 .set16SP (fun x v => { x with stackPointer := (x.stackPointer.extractLsb' 16 48 ++ v : BitVec 64) }) ∧
  SetRow 16 0x54#7 .set16BP (fun x v => { x with stackBasePointer := (x.stackBasePointer.extractLsb' 16 48 ++ v : BitVec 64) }) ∧
  SetRow 16 0x55#7 .set16DI (fun x v => { x with destination := (x.destination.extractLsb' 16 48 ++ v : BitVec 64) }) ∧
  SetRow 16 0x56#7 .set16SI (fun x v => { x with source := (x.source.extractLsb' 16 48 ++ v : BitVec 64) }) ∧
  SetRow 16 0x57#7 .set16DX (fun x v => { x with data := (x.data.extractLsb' 16 48 ++ v : BitVec 64) })

/-- For each of the twelve identifiers of the 8-bit class (AL, BL, CL, DL, AH, BH, CH, SPL, BPL, DIL, SIL, DH): every word with
its header decodes to its instruction with the value data[7:0], and in every state and for every value v that instruction answers
a next state in which only one cell and the response differ: the cell becomes its bits 63:8 followed by v (AL, BL, CL, DL), or its
bits 63:16, v and its bits 7:0 (the other eight), and the response is (1, 0, 0). (R114.) -/
def Obligations.Set8WritesItsBits : Prop :=
  SetRow 8 0x40#7 .set8AL (fun x v => { x with accumulator := (x.accumulator.extractLsb' 8 56 ++ v : BitVec 64) }) ∧
  SetRow 8 0x41#7 .set8BL (fun x v => { x with base := (x.base.extractLsb' 8 56 ++ v : BitVec 64) }) ∧
  SetRow 8 0x42#7 .set8CL (fun x v => { x with counter := (x.counter.extractLsb' 8 56 ++ v : BitVec 64) }) ∧
  SetRow 8 0x47#7 .set8DL (fun x v => { x with data := (x.data.extractLsb' 8 56 ++ v : BitVec 64) }) ∧
  SetRow 8 0x48#7 .set8AH (fun x v => { x with accumulator := (x.accumulator.extractLsb' 16 48 ++ v ++ x.accumulator.extractLsb' 0 8 : BitVec 64) }) ∧
  SetRow 8 0x49#7 .set8BH (fun x v => { x with base := (x.base.extractLsb' 16 48 ++ v ++ x.base.extractLsb' 0 8 : BitVec 64) }) ∧
  SetRow 8 0x4A#7 .set8CH (fun x v => { x with counter := (x.counter.extractLsb' 16 48 ++ v ++ x.counter.extractLsb' 0 8 : BitVec 64) }) ∧
  SetRow 8 0x4B#7 .set8SPL (fun x v => { x with stackPointer := (x.stackPointer.extractLsb' 16 48 ++ v ++ x.stackPointer.extractLsb' 0 8 : BitVec 64) }) ∧
  SetRow 8 0x4C#7 .set8BPL (fun x v => { x with stackBasePointer := (x.stackBasePointer.extractLsb' 16 48 ++ v ++ x.stackBasePointer.extractLsb' 0 8 : BitVec 64) }) ∧
  SetRow 8 0x4D#7 .set8DIL (fun x v => { x with destination := (x.destination.extractLsb' 16 48 ++ v ++ x.destination.extractLsb' 0 8 : BitVec 64) }) ∧
  SetRow 8 0x4E#7 .set8SIL (fun x v => { x with source := (x.source.extractLsb' 16 48 ++ v ++ x.source.extractLsb' 0 8 : BitVec 64) }) ∧
  SetRow 8 0x4F#7 .set8DH (fun x v => { x with data := (x.data.extractLsb' 16 48 ++ v ++ x.data.extractLsb' 0 8 : BitVec 64) })

/-- For every well-formed instruction i, with every value its operand can have, decode (encode i) is i. (30_encoding.md section 5
(R70, R71).) -/
def Obligations.DecodeOfEncodeIsTheInstruction : Prop :=
  ∀ i : Instr, i.wellFormed = true → decode (encode i) = .ok i

/-- For every word cw that decodes to an instruction i: encode i is cw if and only if the ignored bits of cw are zero, that is its
whole data field for a get, and its data bits from the width up for a set. (30_encoding.md section 5 (R71), 30_encoding.md section
4 (R68, R69).) -/
def Obligations.EncodeOfDecodeHoldsExactlyForCanonicalWords : Prop :=
  ∀ (cw : CmdWord) (i : Instr), decode cw = .ok i →
    (encode i = cw ↔
      ((i.op = .get → cw.data = 0#64) ∧ (i.op = .set → cw.data >>> i.view.width = 0#64)))

/-- The list of R72 has 56 different headers. For every word: the decoder refuses it if and only if its header is in the list. In
every state whose next input presents a word with such a header, the step answers a next state with every cell as before and the
response (1, 1, 0). (R72.) -/
def Obligations.ReservedHeadersAreExactlyTheListedOnes : Prop :=
  reservedList.length = 56 ∧ reservedList.Nodup ∧ (∀ h ∈ reservedList, h < 128) ∧
  (∀ cw : CmdWord, (∃ e, decode cw = .error e) ↔ cw.header.toNat ∈ reservedList) ∧
  (∀ (cw : CmdWord) (s : State) (rest : List PortIn), s.inputs = PortIn.present cw :: rest →
    cw.header.toNat ∈ reservedList →
    ∃ t, step s = .next t ∧ t.cells = s.cells ∧ t.rsp = ⟨true, true, 0#64⟩)

/-- For every word that decodes to a set of width W: the value the instruction writes, widened with zeros, is the data field with
the bits from W up cleared; and every word with the same header and the same low W data bits decodes to the same instruction and
gives the same step from every state. (R68.) -/
def Obligations.SetValueIsTheLowDataBits : Prop :=
  ∀ (cw : CmdWord) (i : Instr), decode cw = .ok i → i.op = .set →
    (∀ j, i.value.getLsbD j = (decide (j < i.view.width) && cw.data.getLsbD j)) ∧
    (∀ cw' : CmdWord, cw'.header = cw.header →
      (∀ j, j < i.view.width → cw'.data.getLsbD j = cw.data.getLsbD j) →
      decode cw' = .ok i ∧ ∀ s : State, step (s.presentNext cw') = step (s.presentNext cw))

/-- For every word that decodes to a get and every word with the same header: it decodes to the same get, and from every state
both give the same next state, in which every cell is as before. (R69.) -/
def Obligations.GetIgnoresTheDataField : Prop :=
  ∀ (cw cw' : CmdWord) (i : Instr), decode cw = .ok i → i.op = .get → cw'.header = cw.header →
    decode cw' = .ok i ∧
    ∀ s : State, ∃ t, step (s.presentNext cw) = .next t ∧ step (s.presentNext cw') = .next t ∧ t.cells = s.cells

/-- For every word that decodes to an instruction: it is a set if and only if op is 1, its cell index is id[2:0], its offset is 8
when id[3] is 1 and wc is 0 and else 0, and its width is 8 << wc. (30_encoding.md section 5 (R70), 40_masking_unit.md section 3
(R98).) -/
def Obligations.HeaderFieldsSelectTheView : Prop :=
  ∀ (cw : CmdWord) (i : Instr), decode cw = .ok i →
    (i.op = .set ↔ cw.header.op = 1#1) ∧
    i.view.cell.index.toNat = cw.header.id.toNat % 8 ∧
    i.view.off = (if cw.header.id.getLsbD 3 = true ∧ cw.header.wc = 0#2 then 8 else 0) ∧
    i.view.width = 8 * 2 ^ cw.header.wc.toNat

/-- The words the spec writes out in its worked examples decode as it says: 30_0…, 20_0…, 10_0…, 00_0…, 08_0…,
70_1122334455667788, 60_00000000FFFFFFFF, 50_000000000000AAAA, 40_00000000000000FF, 48_00000000000000FF, and the non-canonical
48_000000000000FF00, which is set8(AH, 0x00). (41_get.md section 2 (R101 to R104), 42_set.md section 2 (R111 to R114),
95_test_vectors.md section 5.1.) -/
def Obligations.WorkedExampleWordsDecode : Prop :=
  decode 0x300000000000000000#71 = .ok .get64RAX ∧
  decode 0x200000000000000000#71 = .ok .get32EAX ∧
  decode 0x100000000000000000#71 = .ok .get16AX ∧
  decode 0x000000000000000000#71 = .ok .get8AL ∧
  decode 0x080000000000000000#71 = .ok .get8AH ∧
  decode 0x701122334455667788#71 = .ok (.set64RAX 0x1122334455667788#64) ∧
  decode 0x6000000000FFFFFFFF#71 = .ok (.set32EAX 0xFFFFFFFF#32) ∧
  decode 0x50000000000000AAAA#71 = .ok (.set16AX 0xAAAA#16) ∧
  decode 0x4000000000000000FF#71 = .ok (.set8AL 0xFF#8) ∧
  decode 0x4800000000000000FF#71 = .ok (.set8AH 0xFF#8) ∧
  decode 0x48000000000000FF00#71 = .ok (.set8AH 0x00#8)

/-- For every cell and every bit: the 64-bit class reaches bits 63:0, the 32-bit class bits 31:0, the 16-bit class bits 15:0, and
the 8-bit class bits 15:8, and bits 7:0 of an A-class cell only. Each class has an identifier of the cell. (10_state.md section 2
(R29).) -/
def Obligations.BitsEachClassReaches : Prop :=
  ∀ (c : Role) (j : Nat),
    ((∃ id : Id64, id.view.cell = c ∧ id.view.covers j = true) ↔ j < 64) ∧
    ((∃ id : Id32, id.view.cell = c ∧ id.view.covers j = true) ↔ j < 32) ∧
    ((∃ id : Id16, id.view.cell = c ∧ id.view.covers j = true) ↔ j < 16) ∧
    ((∃ id : Id8, id.view.cell = c ∧ id.view.covers j = true) ↔ ((8 ≤ j ∧ j < 16) ∨ (j < 8 ∧ c.aClass = true)))

/-- For every cell value, offset and width with off + w at most 64 and every w-bit value v: Insert is the old value with the field
cleared, or-ed with zext(v) masked and shifted to the offset; its bit j is bit j - off of v when off <= j < off + w, and else bit
j of the old value. (R93.) -/
def Obligations.InsertReplacesExactlyTheField : Prop :=
  ∀ (cell : Word) (off w : Nat) (v : BitVec w), off + w ≤ 64 →
    insertField cell off w v = (cell &&& ~~~(fieldMask off w)) ||| ((v.setWidth 64 &&& lowMask w) <<< off) ∧
    ∀ j, j < 64 →
      (insertField cell off w v).getLsbD j =
        (if off ≤ j ∧ j < off + w then v.getLsbD (j - off) else cell.getLsbD j)

/-- For every cell value, offset and width with off + w at most 64: Extract is the truncation of (cell >> off) & M(w), that masked
value is already below 2^w so the truncation drops only zeros, and the result is the slice cell[off+w-1:off]. (R92.) -/
def Obligations.ExtractIsTheRightJustifiedField : Prop :=
  ∀ (cell : Word) (off w : Nat), off + w ≤ 64 →
    extractField cell off w = ((cell >>> off) &&& lowMask w).setWidth w ∧
    (extractField cell off w).setWidth 64 = (cell >>> off) &&& lowMask w ∧
    extractField cell off w = cell.extractLsb' off w

/-- For every offset and width with off + w at most 64, the domain of R97: bit j of FM(off, w), for j below 64, is 1 if and only
if off <= j < off + w; FM is M(w) shifted left by off; and the five masks that occur and their complements have the values the
rule tabulates. (R91.) -/
def Obligations.FieldMaskHasOnesExactlyInTheField : Prop :=
  (∀ off w j : Nat, off + w ≤ 64 → j < 64 → (fieldMask off w).getLsbD j = decide (off ≤ j ∧ j < off + w)) ∧
  (∀ off w : Nat, off + w ≤ 64 → fieldMask off w = lowMask w <<< off) ∧
  fieldMask 0 64 = 0xFFFFFFFFFFFFFFFF#64 ∧ ~~~(fieldMask 0 64) = 0x0000000000000000#64 ∧
  fieldMask 0 32 = 0x00000000FFFFFFFF#64 ∧ ~~~(fieldMask 0 32) = 0xFFFFFFFF00000000#64 ∧
  fieldMask 0 16 = 0x000000000000FFFF#64 ∧ ~~~(fieldMask 0 16) = 0xFFFFFFFFFFFF0000#64 ∧
  fieldMask 0 8 = 0x00000000000000FF#64 ∧ ~~~(fieldMask 0 8) = 0xFFFFFFFFFFFFFF00#64 ∧
  fieldMask 8 8 = 0x000000000000FF00#64 ∧ ~~~(fieldMask 8 8) = 0xFFFFFFFFFFFF00FF#64

/-- For every offset and width with off + w at most 64: masking a value that is really w bits wide changes nothing; and the unit
fed all of data computes the same cell as the unit fed data[w-1:0]. (R94.) -/
def Obligations.ValueMaskOnlyDropsIgnoredBits : Prop :=
  ∀ (off w : Nat), off + w ≤ 64 →
    (∀ v : BitVec w, v.setWidth 64 &&& lowMask w = v.setWidth 64) ∧
    (∀ cell data : Word, insertWord cell off w data = insertField cell off w (data.setWidth w))

/-- For all fields with off + w at most 64 and all values: L1 round trip, L2 the bits outside the field are kept, L3 the last
write wins, L4 writing back what was read changes nothing, L5 disjoint fields commute and do not see each other, L6 a covering
write hides an earlier covered one, L7 a covered write after a covering one changes only its own bits of it; and for the fields of
the instructions, which are the five pairs of R90 and no other: L5 the only disjoint pair is (0, 8) and (8, 8); L8 any two are
nested or disjoint, and (0, 64) contains (0, 32), which contains (0, 16), which contains (0, 8) and (8, 8), and these two are
disjoint. (40_masking_unit.md section 3 (R96), 40_masking_unit.md section 1 (R90).) -/
def Obligations.MaskingUnitLaws : Prop :=
  (∀ (cell : Word) (off w : Nat) (v v' : BitVec w), off + w ≤ 64 →
    extractField (insertField cell off w v) off w = v ∧
    insertField cell off w v &&& ~~~(fieldMask off w) = cell &&& ~~~(fieldMask off w) ∧
    insertField (insertField cell off w v) off w v' = insertField cell off w v' ∧
    insertField cell off w (extractField cell off w) = cell) ∧
  (∀ (cell : Word) (off₁ w₁ off₂ w₂ : Nat) (v₁ : BitVec w₁) (v₂ : BitVec w₂), off₁ + w₁ ≤ 64 → off₂ + w₂ ≤ 64 →
    (fieldMask off₁ w₁ &&& fieldMask off₂ w₂ = 0#64 →
      insertField (insertField cell off₁ w₁ v₁) off₂ w₂ v₂ = insertField (insertField cell off₂ w₂ v₂) off₁ w₁ v₁ ∧
      extractField (insertField cell off₁ w₁ v₁) off₂ w₂ = extractField cell off₂ w₂) ∧
    (fieldMask off₁ w₁ &&& ~~~(fieldMask off₂ w₂) = 0#64 →
      insertField (insertField cell off₁ w₁ v₁) off₂ w₂ v₂ = insertField cell off₂ w₂ v₂) ∧
    (off₂ ≤ off₁ → off₁ + w₁ ≤ off₂ + w₂ → ∀ j, j < w₂ →
      (extractField (insertField (insertField cell off₂ w₂ v₂) off₁ w₁ v₁) off₂ w₂).getLsbD j =
        (if off₁ - off₂ ≤ j ∧ j < off₁ - off₂ + w₁ then v₁.getLsbD (j - (off₁ - off₂)) else v₂.getLsbD j))) ∧
  (∀ i j : Instr,
    fieldMask i.view.off i.view.width &&& fieldMask j.view.off j.view.width = 0#64 ∨
    fieldMask i.view.off i.view.width &&& ~~~(fieldMask j.view.off j.view.width) = 0#64 ∨
    fieldMask j.view.off j.view.width &&& ~~~(fieldMask i.view.off i.view.width) = 0#64) ∧
  (∀ i j : Instr, fieldMask i.view.off i.view.width &&& fieldMask j.view.off j.view.width = 0#64 ↔
    ((i.view.off, i.view.width) = (0, 8) ∧ (j.view.off, j.view.width) = (8, 8)) ∨
    ((i.view.off, i.view.width) = (8, 8) ∧ (j.view.off, j.view.width) = (0, 8))) ∧
  (∀ off w : Nat, (∃ i : Instr, i.view.off = off ∧ i.view.width = w) ↔
    (off, w) ∈ [(0, 64), (0, 32), (0, 16), (0, 8), (8, 8)]) ∧
  fieldMask 0 32 &&& ~~~(fieldMask 0 64) = 0#64 ∧
  fieldMask 0 16 &&& ~~~(fieldMask 0 32) = 0#64 ∧
  fieldMask 0 8 &&& ~~~(fieldMask 0 16) = 0#64 ∧
  fieldMask 8 8 &&& ~~~(fieldMask 0 16) = 0#64 ∧
  fieldMask 0 8 &&& fieldMask 8 8 = 0#64

/-- The field mask is all ones, the cleared old value is 0, and Insert(cell, 0, 64, v) is v whatever the cell was, so set64
through the unit is the overwrite. (R95.) -/
def Obligations.FullWidthInsertIsAnOverwrite : Prop :=
  fieldMask 0 64 = 0xFFFFFFFFFFFFFFFF#64 ∧
  ∀ cell v : Word, cell &&& ~~~(fieldMask 0 64) = 0#64 ∧ insertField cell 0 64 v = v

/-- For every get instruction and every state there is a value r such that the get answers a next state in which only the response
differs, (1, 0, r); the same get again gives the same response; and after any set of another cell the get still answers r. (R105.)
-/
def Obligations.GetsNeverChangeState : Prop :=
  ∀ (i : Instr) (s : State), i.op = .get → ∃ r : Word,
    exec i s = .next { s with rsp := ⟨true, false, r⟩ } ∧
    exec i { s with rsp := ⟨true, false, r⟩ } = .next { s with rsp := ⟨true, false, r⟩ } ∧
    ∀ j : Instr, j.op = .set → j.view.cell ≠ i.view.cell →
      ∃ t, exec j s = .next t ∧ exec i t = .next { t with rsp := ⟨true, false, r⟩ }

/-- For every identifier of every class, every value of its width and every state: the set answers a next state, and the get of
the same identifier there answers a next state with the response (1, 0, v), everything else as the set left it. (R115.) -/
def Obligations.SetThenGetReturnsTheValue : Prop :=
  ∀ s : State,
    (∀ (id : Id64) (v : BitVec 64), ∃ t, exec (Command.set64 id v).instr s = .next t ∧
      exec (Command.get64 id).instr t = .next { t with rsp := ⟨true, false, v⟩ }) ∧
    (∀ (id : Id32) (v : BitVec 32), ∃ t, exec (Command.set32 id v).instr s = .next t ∧
      exec (Command.get32 id).instr t = .next { t with rsp := ⟨true, false, v.setWidth 64⟩ }) ∧
    (∀ (id : Id16) (v : BitVec 16), ∃ t, exec (Command.set16 id v).instr s = .next t ∧
      exec (Command.get16 id).instr t = .next { t with rsp := ⟨true, false, v.setWidth 64⟩ }) ∧
    (∀ (id : Id8) (v : BitVec 8), ∃ t, exec (Command.set8 id v).instr s = .next t ∧
      exec (Command.get8 id).instr t = .next { t with rsp := ⟨true, false, v.setWidth 64⟩ })

/-- For every set instruction and every state: it answers a next state in which its cell, with the bits of the view masked out, is
as before, and every other cell is as before. (R116.) -/
def Obligations.SetChangesNoBitOutsideItsView : Prop :=
  ∀ (i : Instr) (s : State), i.op = .set → ∃ t, exec i s = .next t ∧
    t.cells.read i.view.cell &&& ~~~(fieldMask i.view.off i.view.width) =
      s.cells.read i.view.cell &&& ~~~(fieldMask i.view.off i.view.width) ∧
    ∀ k : Role, k ≠ i.view.cell → t.cells.read k = s.cells.read k

/-- For each pair (AH, AL), (BH, BL), (CH, CL), (DH, DL), every state and all values: a set of the one leaves the answer of a get
of the other as it was, and the two sets in either order end in the same state. (R117.) -/
def Obligations.HighAndLowBytesAreIndependent : Prop :=
  ∀ p ∈ [(Id8.ah, Id8.al), (Id8.bh, Id8.bl), (Id8.ch, Id8.cl), (Id8.dh, Id8.dl)],
    ∀ (s : State) (v w : BitVec 8), ∃ rh rl t u z,
      exec (Command.get8 p.1).instr s = .next { s with rsp := rh } ∧
      exec (Command.get8 p.2).instr s = .next { s with rsp := rl } ∧
      exec (Command.set8 p.1 v).instr s = .next t ∧
      exec (Command.get8 p.2).instr t = .next { t with rsp := rl } ∧
      exec (Command.set8 p.2 w).instr s = .next u ∧
      exec (Command.get8 p.1).instr u = .next { u with rsp := rh } ∧
      exec (Command.set8 p.2 w).instr t = .next z ∧
      exec (Command.set8 p.1 v).instr u = .next z

/-- For every set a and every get b of the same cell and every state: both answer a next state, and bit j of the answer of b is
bit j + ob - oa of the value where oa <= j + ob < oa + wa, else bit j + ob of the cell before the set, for j below the width of b,
and 0 above it. (20_memory.md section 2 (R44).) -/
def Obligations.GetSeesAnEarlierSetExactlyInTheOverlap : Prop :=
  ∀ (a b : Instr) (s : State), a.op = .set → b.op = .get → a.view.cell = b.view.cell →
    ∃ t r, exec a s = .next t ∧ exec b t = .next { t with rsp := ⟨true, false, r⟩ } ∧
      ∀ j, r.getLsbD j =
        (if j < b.view.width then
          (if a.view.off ≤ j + b.view.off ∧ j + b.view.off < a.view.off + a.view.width then
            a.value.getLsbD (j + b.view.off - a.view.off)
          else (s.cells.read a.view.cell).getLsbD (j + b.view.off))
        else false)

/-- For all sets a and b of one cell where the view of b contains the view of a, and every state: a and then b end in the same
state as b alone. With a = b this says that repeating a set changes nothing. (42_set.md section 3 (R118), 20_memory.md section 4
(R47).) -/
def Obligations.CoveringSetHidesAnEarlierSet : Prop :=
  ∀ (a b : Instr) (s : State), a.op = .set → b.op = .set → a.view.cell = b.view.cell →
    b.view.off ≤ a.view.off → a.view.off + a.view.width ≤ b.view.off + b.view.width →
    ∃ t z, exec a s = .next t ∧ exec b t = .next z ∧ exec b s = .next z

/-- For all sets a and b whose views lie in different cells or in disjoint bit ranges, and every state: a then b and b then a end
in the same state. (20_memory.md section 6 (R49).) -/
def Obligations.SetsOfSeparateViewsCommute : Prop :=
  ∀ (a b : Instr) (s : State), a.op = .set → b.op = .set →
    (a.view.cell ≠ b.view.cell ∨ a.view.off + a.view.width ≤ b.view.off ∨ b.view.off + b.view.width ≤ a.view.off) →
    ∃ t u z, exec a s = .next t ∧ exec b t = .next z ∧ exec b s = .next u ∧ exec a u = .next z

/-- For every state: the answer of get16 of AX, BX, CX, DX is the answer of the high-byte get followed by that of the low-byte
get, and bits 15:8 of the answer of get16 of SP, BP, DI, SI are the answer of the single 8-bit get of the cell. (41_get.md section
2 (R103).) -/
def Obligations.SixteenBitGetIsHighByteThenLowByte : Prop :=
  ∀ s : State,
    (∀ p ∈ [(Id16.ax, Id8.ah, Id8.al), (Id16.bx, Id8.bh, Id8.bl), (Id16.cx, Id8.ch, Id8.cl), (Id16.dx, Id8.dh, Id8.dl)],
      ∃ hi lo : BitVec 8,
        exec (Command.get8 p.2.1).instr s = .next { s with rsp := ⟨true, false, hi.setWidth 64⟩ } ∧
        exec (Command.get8 p.2.2).instr s = .next { s with rsp := ⟨true, false, lo.setWidth 64⟩ } ∧
        exec (Command.get16 p.1).instr s = .next { s with rsp := ⟨true, false, (hi ++ lo).setWidth 64⟩ }) ∧
    (∀ p ∈ [(Id16.sp, Id8.spl), (Id16.bp, Id8.bpl), (Id16.di, Id8.dil), (Id16.si, Id8.sil)],
      ∃ (hi : BitVec 8) (v : BitVec 16),
        exec (Command.get8 p.2).instr s = .next { s with rsp := ⟨true, false, hi.setWidth 64⟩ } ∧
        exec (Command.get16 p.1).instr s = .next { s with rsp := ⟨true, false, v.setWidth 64⟩ } ∧
        v.extractLsb' 8 8 = hi)

/-- For every state and cell: if a step changes bits 63:32 of the cell, the cycle was a reset or presented a set64 of that cell;
and if the cell is StackPointer, StackBasePointer, Destination or Source and a step changes its bits 7:0, the cycle was a reset or
presented a set of that cell of 16 bits or more. (10_state.md section 2 (R25, R29), 42_set.md section 2 (R111, R113), 10_state.md
section 3 (R36).) -/
def Obligations.HardToReachBitsChangeOnlyByWideSets : Prop :=
  ∀ (s t : State) (c : Role), step s = .next t →
    ((t.cells.read c).extractLsb' 32 32 ≠ (s.cells.read c).extractLsb' 32 32 →
      s.portIn.rst = true ∨
      (s.portIn.cmdValid = true ∧ ∃ (id : Id64) (v : Word), id.view.cell = c ∧
        decode s.portIn.cmd = .ok (Command.set64 id v).instr)) ∧
    (c.aClass = false → (t.cells.read c).extractLsb' 0 8 ≠ (s.cells.read c).extractLsb' 0 8 →
      s.portIn.rst = true ∨
      (s.portIn.cmdValid = true ∧ ∃ i : Instr, decode s.portIn.cmd = .ok i ∧ i.op = .set ∧ i.view.cell = c ∧
        16 ≤ i.view.width))

/-- In every state whose next input presents a word (cmd_valid = 1, rst = 0) that decodes to a well-formed instruction i: step is
exec of i on the state with that input taken off. The same for an opcode-table word placed with withFetchWord, where it is exec of
i on the very state (that placing is the model's choice, assumption 6; that a step takes one input of a list is assumption 1).
(60_exceptions.md section 1 (R131), 60_exceptions.md section 3 (R134), 30_encoding.md section 5 (R70).) -/
def Obligations.StepRunsTheDecodedInstruction : Prop :=
  (∀ (s : State) (cw : CmdWord) (rest : List PortIn) (i : Instr), s.inputs = PortIn.present cw :: rest →
    decode cw = .ok i → i.wellFormed = true → step s = exec i { s with inputs := rest }) ∧
  (∀ (s : State) (nbits w : Nat) (i : Instr), decodeTableWord nbits w = some i →
    step (s.withFetchWord nbits w) = exec i s)

/-- In every state whose next input has rst = 0 and cmd_valid = 0, whatever its cmd: the step answers the state with that input
taken off and the response (0, 0, 0), every cell as before. That one input is taken off, and that the record of faults stays, is
the model's choice (assumptions 1 and 3). (30_encoding.md section 6 (R75).) -/
def Obligations.IdleCycleChangesNothing : Prop :=
  ∀ (s : State) (cw : CmdWord) (rest : List PortIn), s.inputs = ⟨false, false, cw⟩ :: rest →
    step s = .next { s with inputs := rest, rsp := ⟨false, false, 0#64⟩ }

/-- In every state whose next input has rst = 1, whatever cmd_valid and cmd: the step answers a next state with all eight cells 0
and the response (0, 0, 0), and the coming inputs are the rest. In every state whose inputs all have rst = 1, at least one, the
run of them all ends with all eight cells 0. That the coming inputs are a list, and that a reset cycle keeps it, is the model's
choice (assumptions 1 and 5). (70_reset_and_hazards.md section 1 (R151).) -/
def Obligations.ResetCycleClearsEveryCell : Prop :=
  (∀ (s : State) (valid : Bool) (cw : CmdWord) (rest : List PortIn), s.inputs = ⟨true, valid, cw⟩ :: rest →
    ∃ t, step s = .next t ∧ t.cells = ⟨0#64, 0#64, 0#64, 0#64, 0#64, 0#64, 0#64, 0#64⟩ ∧
      t.rsp = ⟨false, false, 0#64⟩ ∧ t.inputs = rest) ∧
  (∀ s : State, s.inputs ≠ [] → (∀ p ∈ s.inputs, p.rst = true) →
    ∃ t, runInputs s = .next t ∧ t.cells = ⟨0#64, 0#64, 0#64, 0#64, 0#64, 0#64, 0#64, 0#64⟩)

/-- For every state with a next input p the step answers a next state whose response is: (0, 0, 0) in reset; (0, 0, 0) without a
command; (1, 1, 0) for a reserved header; (1, 0, 0) for a legal set; and for a legal get of width W (1, 0, d) where bit j of d is
bit j + off of the cell for j below W and 0 from W up. (R74.) -/
def Obligations.ResponsesFollowTheTable : Prop :=
  ∀ (s : State) (p : PortIn) (rest : List PortIn), s.inputs = p :: rest → ∃ t, step s = .next t ∧
    (p.rst = true → t.rsp = ⟨false, false, 0#64⟩) ∧
    (p.rst = false → p.cmdValid = false → t.rsp = ⟨false, false, 0#64⟩) ∧
    (p.rst = false → p.cmdValid = true → p.cmd.header.toNat ∈ reservedList → t.rsp = ⟨true, true, 0#64⟩) ∧
    (∀ i : Instr, p.rst = false → p.cmdValid = true → decode p.cmd = .ok i →
      (i.op = .set → t.rsp = ⟨true, false, 0#64⟩) ∧
      (i.op = .get → t.rsp.valid = true ∧ t.rsp.err = false ∧
        ∀ j, t.rsp.data.getLsbD j =
          (decide (j < i.view.width) && (s.cells.read i.view.cell).getLsbD (j + i.view.off))))

/-- For every list of inputs followed by a presented reserved word: after the run of that list and the word, every cell is what
the run of the list alone left in it, and the response is (1, 1, 0). (R135.) -/
def Obligations.IllegalCommandChangesNoCell : Prop :=
  ∀ (s : State) (ps : List PortIn) (cw : CmdWord), cw.header.toNat ∈ reservedList →
    ∃ t u, runInputs { s with inputs := ps } = .next t ∧
      runInputs { s with inputs := ps ++ [PortIn.present cw] } = .next u ∧
      u.cells = t.cells ∧ u.rsp = ⟨true, true, 0#64⟩

/-- In every state with a next input p: the step answers a next state whose record of faults is the old one followed by
IllegalCommand of the header of p when rst = 0, cmd_valid = 1 and the header is reserved, and is the old one in every other case.
How the fault is recorded is the model's choice (assumptions 3 and 5). (60_exceptions.md section 1 (R131), 60_exceptions.md
section 4 (R137).) -/
def Obligations.FaultIsRecordedExactlyForAPresentedReservedWord : Prop :=
  ∀ (s : State) (p : PortIn) (rest : List PortIn), s.inputs = p :: rest → ∃ t, step s = .next t ∧
    t.faults =
      (if p.rst = false ∧ p.cmdValid = true ∧ p.cmd.header.toNat ∈ reservedList then
        s.faults ++ [.illegalCommand p.cmd.header]
      else s.faults)

/-- For every state, reserved word and legal word after it: the two steps answer next states, the cells and the response after
them are those of the legal word alone, and its rsp_err is 0; and the inputs left, which are the model's own (assumption 1), are
the same too. (60_exceptions.md section 4 (R136).) -/
def Obligations.FaultIsNotSticky : Prop :=
  ∀ (s : State) (bad good : CmdWord) (i : Instr) (rest : List PortIn),
    bad.header.toNat ∈ reservedList → decode good = .ok i →
    s.inputs = PortIn.present bad :: PortIn.present good :: rest →
    ∃ t u u', step s = .next t ∧ step t = .next u ∧ step { s with inputs := PortIn.present good :: rest } = .next u' ∧
      u.cells = u'.cells ∧ u.rsp = u'.rsp ∧ u.rsp.err = false ∧ u.inputs = u'.inputs

/-- From every state the step answers a next state, and exactly one input is taken (none where the engine drives nothing more).
That a step takes one input of a list, and that an empty list is an idle cycle, is the model's choice (assumption 1); that a
reserved header too answers a next state and not a fault is the model's choice (assumption 3). (70_reset_and_hazards.md section 3
(R156), 20_memory.md section 9 (R55), 60_exceptions.md section 4 (R136).) -/
def Obligations.EveryStepIsANextState : Prop :=
  ∀ s : State, ∃ t, step s = .next t ∧ t.inputs = s.inputs.tail

/-- For every state: the step answers exactly the state of the wired description, in which op, wc and id are used directly as
selects, the masking unit is driven by its ports, and no typed command occurs. The description also fixes the fields that are the
model's own: one input is taken off the list, and an empty list is an idle cycle (assumption 1); a reserved word is recorded
(assumption 3); a reset cycle keeps the record (assumption 5). (30_encoding.md sections 2, 5 and 6 (R62, R70, R74),
40_masking_unit.md section 3 (R98), 70_reset_and_hazards.md sections 1 and 4 (R151, R157), 60_exceptions.md section 4 (R137).) -/
def Obligations.WiredDatapathIsTheStep : Prop :=
  ∀ s : State, step s = .next (Datapath.nextState s)

/-- For every state whose inputs present the canonical words of a list of typed commands: the run of them all ends in a next state
whose cells are those of the typed run, no fault is recorded, no input is left, and the responses along the way are the typed
results, in order. (The list of inputs and the record of faults are the model's own: assumptions 1 and 3.) (30_encoding.md section
1 (R61), 00_scope.md section 7 (R17), 92_eei_decisions.md D27.) -/
def Obligations.RunOfEncodedCommandsIsTheTypedRun : Prop :=
  ∀ (s : State) (ks : List Command), s.inputs = ks.map (fun k => PortIn.present (encodeCommand k)) →
    ∃ t, runInputs s = .next t ∧ t.inputs = [] ∧ t.faults = s.faults ∧
      t.cells = (runTyped ks s.cells).1 ∧
      responsesOf ks.length s = (runTyped ks s.cells).2.map TypedResult.response

/-- For every state, with any list of inputs: the run of them all answers a next state, and each bit j of each cell c is the value
that the history of the inputs gives it: 0 at a reset, the bit of the value at a legal set whose view covers it, and else the bit
it was; so two sets that overlap are decided by the later one. (The list of inputs is the model's own: assumption 1.)
(20_memory.md section 6 (R49), 40_masking_unit.md section 3 (R93).) -/
def Obligations.EveryBitIsItsLastWrite : Prop :=
  ∀ s : State, ∃ t, runInputs s = .next t ∧ t.inputs = [] ∧
    ∀ (c : Role) (j : Nat), j < 64 →
      (t.cells.read c).getLsbD j = bitHistory c j ((s.cells.read c).getLsbD j) s.inputs

/-- For all lists of inputs ps and qs and every input g that presents a get: the run of ps, g, qs and the run of ps, qs end with
the same cells and the same record of faults, and the responses of the first run, without the one to g, are the responses of the
second. (The list of inputs and the record of faults are the model's own: assumptions 1 and 3.) (60_exceptions.md section 8
(R144), 41_get.md section 3 (R105).) -/
def Obligations.InspectorGetIsInvisible : Prop :=
  ∀ (s : State) (ps qs : List PortIn) (g : PortIn), g.isGet = true →
    ∃ t t', runInputs { s with inputs := ps ++ g :: qs } = .next t ∧
      runInputs { s with inputs := ps ++ qs } = .next t' ∧ t.cells = t'.cells ∧ t.faults = t'.faults ∧
      (responsesOf (ps ++ g :: qs).length { s with inputs := ps ++ g :: qs }).eraseIdx ps.length =
        responsesOf (ps ++ qs).length { s with inputs := ps ++ qs }

/-- For every cell c and all states that have the same inputs and agree on c: the runs of the inputs answer next states that agree
on c. (10_state.md section 1 (R21).) -/
def Obligations.CellsNeverInfluenceOneAnother : Prop :=
  ∀ (s s' : State) (c : Role), s.inputs = s'.inputs → s.cells.read c = s'.cells.read c →
    ∃ t t', runInputs s = .next t ∧ runInputs s' = .next t' ∧ t.cells.read c = t'.cells.read c

/-- From every state: the run of the inputs answers a next state whose record is the old one followed by IllegalCommand of the
header of each presented reserved word, in order; so a run that starts with no fault recorded ends with none if and only if the
engine issues no reserved header. The record and its survival of a reset are the model's choice (assumptions 3 and 5).
(60_exceptions.md section 4 (R137), 60_exceptions.md section 1 (R131), 95_test_vectors.md section 6 P5.) -/
def Obligations.RunRecordsExactlyTheReservedWords : Prop :=
  ∀ s : State, ∃ t, runInputs s = .next t ∧
    t.faults = s.faults ++ (s.inputs.filter fun p => !p.safe).map (fun p => Fault.illegalCommand p.cmd.header) ∧
    (s.faultFree = true → (t.faultFree = true ↔ s.safeInputs = true))

/-- For every state s with the invariant (its last response has one of the shapes of the response table, and if it is an error a
fault is recorded): if the step answers next t, then t has the invariant. The record of faults is the model's choice (assumption
3). (30_encoding.md section 6 (R74), 60_exceptions.md section 4 (R137).) -/
def Obligations.StepKeepsTheInvariant : Prop :=
  ∀ s t : State, s.inv = true → step s = .next t → t.inv = true

/-- State.reset has the invariant and records no fault. Its response and record are the model's choice (assumptions 2 and 3).
(70_reset_and_hazards.md section 1 (R150), 30_encoding.md section 6 (R74).) -/
def Obligations.ResetHasTheInvariant : Prop :=
  State.reset.inv = true ∧ State.reset.faultFree = true

/-- In the reset state the cell of each of the eight roles is 0, each of the 36 get instructions answers a next state with the
response (1, 0, 0) and all else as at reset; and in every state each of them answers a next state whose response has rsp_valid = 1
and rsp_err = 0. (R37.) -/
def Obligations.AfterResetEveryGetReturnsZero : Prop :=
  State.reset.cells = ⟨0#64, 0#64, 0#64, 0#64, 0#64, 0#64, 0#64, 0#64⟩ ∧
  (∀ c : Role, State.reset.cells.read c = 0#64) ∧
  (∀ i : Instr, i.op = .get → exec i State.reset = .next { State.reset with rsp := ⟨true, false, 0#64⟩ }) ∧
  (∀ (i : Instr) (s : State), i.op = .get → ∃ t, exec i s = .next t ∧ t.rsp.valid = true ∧ t.rsp.err = false)

/-- For every typed command k, with every value: assembling the text of k gives the one command k, with no harness assertion. For
every sequence of commands, each get with or without a value to compare that fits in its width: assembling their text, with a line
end, a ; or a ; and a space between two of them, gives that sequence. (The text is written with one space after the comma and
around ==, and all digits of the width: assumption 11.) (30_encoding.md section 8 (R79).) -/
def Obligations.AssemblingARenderedCommandGivesItBack : Prop :=
  (∀ k : Command, Text.assemble (Text.render k) = .ok [⟨k, none⟩]) ∧
  (∀ sep ∈ ["\n".toList, ";".toList, "; ".toList], ∀ xs : List Text.Item, (∀ x ∈ xs, x.wellFormed = true) →
    Text.assemble (Text.renderSeq sep xs) = .ok xs)

/-- A raw command has a typed command if and only if its identifier is of the operation's class, it has a value exactly if it is a
set, and the value fits in the width; and the typed command it has, seen as a raw one again, is that very raw command. A word
names an operation or an identifier if and only if it is its mnemonic. A word is a numeral if and only if it is 0x, a hexadecimal
digit, and then digits and underscores. A piece of text is the item x if and only if it has one of the three forms getW(ID),
setW(ID, value), getW(ID) == value, with the mnemonics of x's command and a numeral of its value (which fits in the width). A text
assembles to some commands if and only if it splits into tokens and each piece that is not empty is some item, so one that is
ill-formed refuses the whole text. The texts get8(RAX), get8(XYZ) and set8(AL, 0x100) are refused, each by its own name. (Numerals
and pieces as assumption 11 has them; that the whole text is refused is the model's choice, assumption 14.) (30_encoding.md
section 8 (R79, R80, R81), 10_state.md section 2 (R22 to R25).) -/
def Obligations.TextIsRefusedExactlyWhenIllFormed : Prop :=
  (∀ r : RawCommand, (∃ k, Text.typed r = .ok k) ↔ r.wellFormed = true) ∧
  (∀ (r : RawCommand) (k : Command), Text.typed r = .ok k → k.raw = r) ∧
  (∀ (w : List Char) (op : Op) (width : WidthClass), Text.findOp w = some (op, width) ↔ Text.opName op width = w) ∧
  (∀ (w : List Char) (id : AnyId), Text.findId w = some id ↔ Text.idName id = w) ∧
  (∀ w : List Char, (∃ n, Text.numeral w = some n) ↔
    ∃ c cs, w = '0' :: 'x' :: c :: cs ∧ (Text.hexDigit c).isSome = true ∧
      ∀ d ∈ cs, d = '_' ∨ (Text.hexDigit d).isSome = true) ∧
  (∀ (p : List Text.Token) (x : Text.Item), Text.parsePiece p = .ok x ↔ PieceOf p x) ∧
  (∀ text : List Char, (∃ xs, Text.assemble text = .ok xs) ↔
    ∃ ts, Text.lex text [] false = some ts ∧ ∀ p ∈ Text.pieces ts, p ≠ [] → ∃ x, PieceOf p x) ∧
  Text.assemble "get8(RAX)".toList = .error .wrongClass ∧
  Text.assemble "get8(XYZ)".toList = .error .unknownMnemonic ∧
  Text.assemble "set8(AL, 0x100)".toList = .error .valueTooWide
end

