-- ==== Sys2Proof/Laws/Decode.lean ====
section
/-! SUPPORT. The fields of a word made of a header and a data field (R63), and the code tables (R64 to R67). -/

namespace Sys2Proof

/-- The header of a made word (R63). -/
@[simp] theorem header_make (h : Header) (d : Word) : (CmdWord.make h d).header = h := by
  apply BitVec.eq_of_getLsbD_eq
  intro i hi
  simp only [CmdWord.header, CmdWord.make, BitVec.getLsbD_extractLsb', BitVec.getLsbD_append]
  have : ¬ 64 + i < 64 := by omega
  simp [this, hi]

/-- The data field of a made word (R63). -/
@[simp] theorem data_make (h : Header) (d : Word) : (CmdWord.make h d).data = d := by
  apply BitVec.eq_of_getLsbD_eq
  intro i hi
  simp only [CmdWord.data, CmdWord.make, BitVec.getLsbD_extractLsb', BitVec.getLsbD_append]
  simp [hi]

/-- A word is its header and its data field (R63). -/
theorem make_header_data (cw : CmdWord) : CmdWord.make cw.header cw.data = cw := by
  apply BitVec.eq_of_getLsbD_eq
  intro i hi
  simp only [CmdWord.header, CmdWord.data, CmdWord.make, BitVec.getLsbD_extractLsb', BitVec.getLsbD_append]
  by_cases h : i < 64
  · simp [h]
  · have h7 : i - 64 < 7 := by omega
    have h64 : 64 + (i - 64) = i := by omega
    simp [h, h7, h64]

@[simp] theorem Op.ofCode_code (o : Op) : Op.ofCode o.code = o := by cases o <;> rfl

@[simp] theorem WidthClass.ofCode_code (w : WidthClass) : WidthClass.ofCode w.code = w := by cases w <;> rfl

@[simp] theorem Id64.ofCode_code (i : Id64) : Id64.ofCode i.code = some i := by cases i <;> rfl

@[simp] theorem Id32.ofCode_code (i : Id32) : Id32.ofCode i.code = some i := by cases i <;> rfl

@[simp] theorem Id16.ofCode_code (i : Id16) : Id16.ofCode i.code = some i := by cases i <;> rfl

@[simp] theorem Id8.ofCode_code (i : Id8) : Id8.ofCode i.code = some i := by cases i <;> rfl

/-- An instruction is the instruction of its typed command (R73). -/
@[simp] theorem instr_command (i : Instr) : i.command.instr = i := by cases i <;> rfl

/-- A typed command is the command of its instruction (R73). -/
@[simp] theorem command_instr (k : Command) : k.instr.command = k := by
  cases k with
  | get64 id => cases id <;> rfl
  | get32 id => cases id <;> rfl
  | get16 id => cases id <;> rfl
  | get8 id => cases id <;> rfl
  | set64 id v => cases id <;> rfl
  | set32 id v => cases id <;> rfl
  | set16 id v => cases id <;> rfl
  | set8 id v => cases id <;> rfl

end Sys2Proof
end

