-- ==== Sys2Proof/Laws/Masking.lean ====
section
/-! SUPPORT. The bits of the constant masks (R12). -/

namespace Sys2Proof.Machine

/-- Bit `j` of `M(w)` (R12). -/
theorem getLsbD_lowMask (w j : Nat) : (lowMask w).getLsbD j = (decide (j < 64) && decide (j < w)) := by
  unfold lowMask
  by_cases h : j < w <;> simp [BitVec.getLsbD_setWidth, h]

/-- The views of the 36 identifiers lie in the domain of the masking unit (R97). -/
theorem view_wellFormed (i : Instr) : i.view.wellFormed = true := by
  cases i <;> rfl

/-- Every view has the width of its command's class and fits in a cell (R90, R97). -/
theorem view_fits (i : Instr) : 1 ≤ i.view.width ∧ i.view.off + i.view.width ≤ 64 := by
  have h := view_wellFormed i
  simpa [View.wellFormed] using h

end Sys2Proof.Machine
end

