-- ==== Sys2Proof/Laws/State.lean ====
section
/-! SUPPORT. One lemma per field of the state per update, and the laws of reading and writing a cell (R13, R21). -/

namespace Sys2Proof.Machine

@[simp] theorem perform_cells (k : Command) (s : State) : (perform k s).cells = (applyTyped k s.cells).1 := rfl
@[simp] theorem perform_inputs (k : Command) (s : State) : (perform k s).inputs = s.inputs := rfl
@[simp] theorem perform_rsp (k : Command) (s : State) : (perform k s).rsp = (applyTyped k s.cells).2.response := rfl
@[simp] theorem perform_faults (k : Command) (s : State) : (perform k s).faults = s.faults := rfl

@[simp] theorem takeIllegalCommand_cells (h : Header) (s : State) : (takeIllegalCommand h s).cells = s.cells := rfl
@[simp] theorem takeIllegalCommand_inputs (h : Header) (s : State) : (takeIllegalCommand h s).inputs = s.inputs := rfl
@[simp] theorem takeIllegalCommand_rsp (h : Header) (s : State) : (takeIllegalCommand h s).rsp = ⟨true, true, 0#64⟩ := rfl
@[simp] theorem takeIllegalCommand_faults (h : Header) (s : State) : (takeIllegalCommand h s).faults = s.faults ++ [.illegalCommand h] := rfl

@[simp] theorem resetCycle_cells (s : State) : (resetCycle s).cells = Cells.zero := rfl
@[simp] theorem resetCycle_inputs (s : State) : (resetCycle s).inputs = s.inputs := rfl
@[simp] theorem resetCycle_rsp (s : State) : (resetCycle s).rsp = ⟨false, false, 0#64⟩ := rfl
@[simp] theorem resetCycle_faults (s : State) : (resetCycle s).faults = s.faults := rfl

@[simp] theorem idleCycle_cells (s : State) : (idleCycle s).cells = s.cells := rfl
@[simp] theorem idleCycle_inputs (s : State) : (idleCycle s).inputs = s.inputs := rfl
@[simp] theorem idleCycle_rsp (s : State) : (idleCycle s).rsp = ⟨false, false, 0#64⟩ := rfl
@[simp] theorem idleCycle_faults (s : State) : (idleCycle s).faults = s.faults := rfl

@[simp] theorem afterPortIn_cells (s : State) : (s.afterPortIn).cells = s.cells := rfl
@[simp] theorem afterPortIn_inputs (s : State) : (s.afterPortIn).inputs = s.inputs.tail := rfl
@[simp] theorem afterPortIn_rsp (s : State) : (s.afterPortIn).rsp = s.rsp := rfl
@[simp] theorem afterPortIn_faults (s : State) : (s.afterPortIn).faults = s.faults := rfl

@[simp] theorem presentNext_cells (s : State) (cw : CmdWord) : (s.presentNext cw).cells = s.cells := rfl
@[simp] theorem presentNext_inputs (s : State) (cw : CmdWord) : (s.presentNext cw).inputs = PortIn.present cw :: s.inputs := rfl
@[simp] theorem presentNext_rsp (s : State) (cw : CmdWord) : (s.presentNext cw).rsp = s.rsp := rfl
@[simp] theorem presentNext_faults (s : State) (cw : CmdWord) : (s.presentNext cw).faults = s.faults := rfl

@[simp] theorem reset_cells : State.reset.cells = Cells.zero := rfl
@[simp] theorem reset_inputs : State.reset.inputs = [] := rfl
@[simp] theorem reset_rsp : State.reset.rsp = ⟨false, false, 0#64⟩ := rfl
@[simp] theorem reset_faults : State.reset.faults = [] := rfl

/-- The cell written holds the value. -/
@[simp] theorem read_write_self (x : Cells) (c : Role) (v : Word) : (x.write c v).read c = v := by
  cases c <;> rfl

/-- Every other cell keeps its value (R21). -/
theorem read_write_other (x : Cells) (c d : Role) (v : Word) (h : d ≠ c) : (x.write c v).read d = x.read d := by
  cases c <;> cases d <;> first | rfl | exact absurd rfl h

/-- Every cell is zero after reset (R37). -/
@[simp] theorem read_zero (c : Role) : Cells.zero.read c = 0#64 := by
  cases c <;> rfl

/-- Cells that read alike are equal. -/
theorem cells_ext (x y : Cells) (h : ∀ c, x.read c = y.read c) : x = y := by
  have h0 := h .accumulator
  have h1 := h .base
  have h2 := h .counter
  have h3 := h .stackPointer
  have h4 := h .stackBasePointer
  have h5 := h .destination
  have h6 := h .source
  have h7 := h .data
  cases x
  cases y
  simp only [Cells.read] at h0 h1 h2 h3 h4 h5 h6 h7
  subst h0 h1 h2 h3 h4 h5 h6 h7
  rfl

/-- Writing back the value read changes nothing. -/
@[simp] theorem write_read_self (x : Cells) (c : Role) : x.write c (x.read c) = x := by
  cases c <;> rfl

/-- A later write of the same cell replaces the earlier one. -/
@[simp] theorem write_write_self (x : Cells) (c : Role) (v w : Word) : (x.write c v).write c w = x.write c w := by
  cases c <;> rfl

/-- Writes of different cells commute. -/
theorem write_comm (x : Cells) (c d : Role) (v w : Word) (h : c ≠ d) :
    (x.write c v).write d w = (x.write d w).write c v := by
  cases c <;> cases d <;> first | rfl | exact absurd rfl h

/-- `Role.ofIndex` undoes `Role.index` (R20). -/
@[simp] theorem ofIndex_index (c : Role) : Role.ofIndex c.index = c := by
  cases c <;> rfl

end Sys2Proof.Machine
end

