-- ==== Sys2Proof/Laws/Ops.lean ====
section
/-! SUPPORT. What each shared operation and the step can do, said once. -/

namespace Sys2Proof.Machine

/-- What a typed command does to the cells: nothing for a get, one write of one cell for a set (R100, R110). -/
theorem applyTyped_cells (k : Command) (x : Cells) :
    (k.op = .get ∧ (applyTyped k x).1 = x) ∨
    (k.op = .set ∧ (applyTyped k x).1 = x.writeView k.view (k.raw.width.bits) (k.data.setWidth k.raw.width.bits) ∧
      (applyTyped k x).2 = .nothing) := by
  cases k with
  | get64 id => exact .inl ⟨rfl, rfl⟩
  | get32 id => exact .inl ⟨rfl, rfl⟩
  | get16 id => exact .inl ⟨rfl, rfl⟩
  | get8 id => exact .inl ⟨rfl, rfl⟩
  | set64 id v => exact .inr ⟨rfl, by simp [applyTyped, Command.view, Command.raw, Command.data, WidthClass.bits], rfl⟩
  | set32 id v => exact .inr ⟨rfl, by simp [applyTyped, Command.view, Command.raw, Command.data, WidthClass.bits], rfl⟩
  | set16 id v => exact .inr ⟨rfl, by simp [applyTyped, Command.view, Command.raw, Command.data, WidthClass.bits], rfl⟩
  | set8 id v => exact .inr ⟨rfl, by simp [applyTyped, Command.view, Command.raw, Command.data, WidthClass.bits], rfl⟩

/-- Every meaning is its typed command performed on the state (R61). -/
theorem exec_eq_perform (i : Instr) (s : State) : exec i s = .next (perform i.command s) := by
  cases i <;> rfl

/-- What a presented word does (R131). -/
theorem stepBinary_cases (cw : CmdWord) (s : State) :
    (∃ i, decode cw = .ok i ∧ stepBinary cw s = .next (perform i.command s)) ∨
    (∃ e, decode cw = .error e ∧ stepBinary cw s = .next (takeIllegalCommand cw.header s)) := by
  unfold stepBinary
  cases h : decode cw with
  | ok i => exact .inl ⟨i, rfl, exec_eq_perform i s⟩
  | error e => exact .inr ⟨e, rfl, rfl⟩

/-- What a step can do, in the order of R134: reset, idle, a decoded instruction, or `IllegalCommand`. -/
theorem step_cases (s : State) :
    (s.portIn.rst = true ∧ step s = .next (resetCycle s.afterPortIn)) ∨
    (s.portIn.rst = false ∧ s.portIn.cmdValid = false ∧ step s = .next (idleCycle s.afterPortIn)) ∨
    (s.portIn.rst = false ∧ s.portIn.cmdValid = true ∧
      ∃ i, decode s.portIn.cmd = .ok i ∧ step s = .next (perform i.command s.afterPortIn)) ∨
    (s.portIn.rst = false ∧ s.portIn.cmdValid = true ∧
      ∃ e, decode s.portIn.cmd = .error e ∧ step s = .next (takeIllegalCommand s.portIn.cmd.header s.afterPortIn)) := by
  unfold step cycle
  cases hr : s.portIn.rst
  · cases hv : s.portIn.cmdValid
    · exact .inr (.inl ⟨rfl, rfl, rfl⟩)
    · rcases stepBinary_cases s.portIn.cmd s.afterPortIn with ⟨i, hd, h⟩ | ⟨e, hd, h⟩
      · exact .inr (.inr (.inl ⟨rfl, rfl, i, hd, by simpa using h⟩))
      · exact .inr (.inr (.inr ⟨rfl, rfl, e, hd, by simpa using h⟩))
  · exact .inl ⟨rfl, rfl⟩

/-- The next input of a state with a coming cycle. -/
@[simp] theorem portIn_of_inputs (s : State) (p : PortIn) (rest : List PortIn) (h : s.inputs = p :: rest) : s.portIn = p := by
  simp [State.portIn, h]

/-- The presented word is the next input. -/
@[simp] theorem portIn_presentNext (s : State) (cw : CmdWord) : (s.presentNext cw).portIn = PortIn.present cw := rfl

/-- Taking the presented word off leaves the state. -/
@[simp] theorem afterPortIn_presentNext (s : State) (cw : CmdWord) : (s.presentNext cw).afterPortIn = s := rfl

end Sys2Proof.Machine
end

