-- ==== Sys2Proof/Laws/PerInstr.lean ====
section
/-! SUPPORT. The per-instruction family `LegalHeader`: each constructor is well formed and encodes to a word whose header is its row's of
the opcode table, which is no reserved header (R72, R73). -/

namespace Sys2Proof.Laws

/-- The header of an instruction's canonical word is not reserved, and the instruction is well formed. -/
def LegalHeader.Statement (i : Instr) : Prop :=
  i.wellFormed = true ∧ (encode i).header.reserved = false

/-- From the header the row has in the opcode table: the canonical word's header is the command's. -/
theorem LegalHeader.of_header (i : Instr) (hdr : Header) (h : i.wellFormed = true) (he : i.command.header = hdr)
    (hr : hdr.reserved = false) : LegalHeader.Statement i :=
  ⟨h, by simpa [encode, encodeCommand, he] using hr⟩

/-- A value of the class's width passes the check of R79. -/
theorem wellFormed_of_lt (W : WidthClass) (id : AnyId) (v : Nat) (hid : id.widthClass = W) (hv : v < 2 ^ W.bits) :
    (RawCommand.mk .set W id (some v)).wellFormed = true := by
  simp [RawCommand.wellFormed, RawCommand.identInClass, RawCommand.valueShape, RawCommand.valueFits, hid, hv]

theorem LegalHeader.get8AL : LegalHeader.Statement .get8AL := LegalHeader.of_header _ 0x00#7 rfl rfl rfl
theorem LegalHeader.get8BL : LegalHeader.Statement .get8BL := LegalHeader.of_header _ 0x01#7 rfl rfl rfl
theorem LegalHeader.get8CL : LegalHeader.Statement .get8CL := LegalHeader.of_header _ 0x02#7 rfl rfl rfl
theorem LegalHeader.get8DL : LegalHeader.Statement .get8DL := LegalHeader.of_header _ 0x07#7 rfl rfl rfl
theorem LegalHeader.get8AH : LegalHeader.Statement .get8AH := LegalHeader.of_header _ 0x08#7 rfl rfl rfl
theorem LegalHeader.get8BH : LegalHeader.Statement .get8BH := LegalHeader.of_header _ 0x09#7 rfl rfl rfl
theorem LegalHeader.get8CH : LegalHeader.Statement .get8CH := LegalHeader.of_header _ 0x0A#7 rfl rfl rfl
theorem LegalHeader.get8SPL : LegalHeader.Statement .get8SPL := LegalHeader.of_header _ 0x0B#7 rfl rfl rfl
theorem LegalHeader.get8BPL : LegalHeader.Statement .get8BPL := LegalHeader.of_header _ 0x0C#7 rfl rfl rfl
theorem LegalHeader.get8DIL : LegalHeader.Statement .get8DIL := LegalHeader.of_header _ 0x0D#7 rfl rfl rfl
theorem LegalHeader.get8SIL : LegalHeader.Statement .get8SIL := LegalHeader.of_header _ 0x0E#7 rfl rfl rfl
theorem LegalHeader.get8DH : LegalHeader.Statement .get8DH := LegalHeader.of_header _ 0x0F#7 rfl rfl rfl
theorem LegalHeader.get16AX : LegalHeader.Statement .get16AX := LegalHeader.of_header _ 0x10#7 rfl rfl rfl
theorem LegalHeader.get16BX : LegalHeader.Statement .get16BX := LegalHeader.of_header _ 0x11#7 rfl rfl rfl
theorem LegalHeader.get16CX : LegalHeader.Statement .get16CX := LegalHeader.of_header _ 0x12#7 rfl rfl rfl
theorem LegalHeader.get16SP : LegalHeader.Statement .get16SP := LegalHeader.of_header _ 0x13#7 rfl rfl rfl
theorem LegalHeader.get16BP : LegalHeader.Statement .get16BP := LegalHeader.of_header _ 0x14#7 rfl rfl rfl
theorem LegalHeader.get16DI : LegalHeader.Statement .get16DI := LegalHeader.of_header _ 0x15#7 rfl rfl rfl
theorem LegalHeader.get16SI : LegalHeader.Statement .get16SI := LegalHeader.of_header _ 0x16#7 rfl rfl rfl
theorem LegalHeader.get16DX : LegalHeader.Statement .get16DX := LegalHeader.of_header _ 0x17#7 rfl rfl rfl
theorem LegalHeader.get32EAX : LegalHeader.Statement .get32EAX := LegalHeader.of_header _ 0x20#7 rfl rfl rfl
theorem LegalHeader.get32EBX : LegalHeader.Statement .get32EBX := LegalHeader.of_header _ 0x21#7 rfl rfl rfl
theorem LegalHeader.get32ECX : LegalHeader.Statement .get32ECX := LegalHeader.of_header _ 0x22#7 rfl rfl rfl
theorem LegalHeader.get32ESP : LegalHeader.Statement .get32ESP := LegalHeader.of_header _ 0x23#7 rfl rfl rfl
theorem LegalHeader.get32EBP : LegalHeader.Statement .get32EBP := LegalHeader.of_header _ 0x24#7 rfl rfl rfl
theorem LegalHeader.get32EDI : LegalHeader.Statement .get32EDI := LegalHeader.of_header _ 0x25#7 rfl rfl rfl
theorem LegalHeader.get32ESI : LegalHeader.Statement .get32ESI := LegalHeader.of_header _ 0x26#7 rfl rfl rfl
theorem LegalHeader.get32EDX : LegalHeader.Statement .get32EDX := LegalHeader.of_header _ 0x27#7 rfl rfl rfl
theorem LegalHeader.get64RAX : LegalHeader.Statement .get64RAX := LegalHeader.of_header _ 0x30#7 rfl rfl rfl
theorem LegalHeader.get64RBX : LegalHeader.Statement .get64RBX := LegalHeader.of_header _ 0x31#7 rfl rfl rfl
theorem LegalHeader.get64RCX : LegalHeader.Statement .get64RCX := LegalHeader.of_header _ 0x32#7 rfl rfl rfl
theorem LegalHeader.get64RSP : LegalHeader.Statement .get64RSP := LegalHeader.of_header _ 0x33#7 rfl rfl rfl
theorem LegalHeader.get64RBP : LegalHeader.Statement .get64RBP := LegalHeader.of_header _ 0x34#7 rfl rfl rfl
theorem LegalHeader.get64RDI : LegalHeader.Statement .get64RDI := LegalHeader.of_header _ 0x35#7 rfl rfl rfl
theorem LegalHeader.get64RSI : LegalHeader.Statement .get64RSI := LegalHeader.of_header _ 0x36#7 rfl rfl rfl
theorem LegalHeader.get64RDX : LegalHeader.Statement .get64RDX := LegalHeader.of_header _ 0x37#7 rfl rfl rfl
theorem LegalHeader.set8AL (v : BitVec 8) : LegalHeader.Statement (.set8AL v) :=
  LegalHeader.of_header _ 0x40#7 (wellFormed_of_lt .w8 (.id8 .al) v.toNat rfl v.isLt) rfl rfl
theorem LegalHeader.set8BL (v : BitVec 8) : LegalHeader.Statement (.set8BL v) :=
  LegalHeader.of_header _ 0x41#7 (wellFormed_of_lt .w8 (.id8 .bl) v.toNat rfl v.isLt) rfl rfl
theorem LegalHeader.set8CL (v : BitVec 8) : LegalHeader.Statement (.set8CL v) :=
  LegalHeader.of_header _ 0x42#7 (wellFormed_of_lt .w8 (.id8 .cl) v.toNat rfl v.isLt) rfl rfl
theorem LegalHeader.set8DL (v : BitVec 8) : LegalHeader.Statement (.set8DL v) :=
  LegalHeader.of_header _ 0x47#7 (wellFormed_of_lt .w8 (.id8 .dl) v.toNat rfl v.isLt) rfl rfl
theorem LegalHeader.set8AH (v : BitVec 8) : LegalHeader.Statement (.set8AH v) :=
  LegalHeader.of_header _ 0x48#7 (wellFormed_of_lt .w8 (.id8 .ah) v.toNat rfl v.isLt) rfl rfl
theorem LegalHeader.set8BH (v : BitVec 8) : LegalHeader.Statement (.set8BH v) :=
  LegalHeader.of_header _ 0x49#7 (wellFormed_of_lt .w8 (.id8 .bh) v.toNat rfl v.isLt) rfl rfl
theorem LegalHeader.set8CH (v : BitVec 8) : LegalHeader.Statement (.set8CH v) :=
  LegalHeader.of_header _ 0x4A#7 (wellFormed_of_lt .w8 (.id8 .ch) v.toNat rfl v.isLt) rfl rfl
theorem LegalHeader.set8SPL (v : BitVec 8) : LegalHeader.Statement (.set8SPL v) :=
  LegalHeader.of_header _ 0x4B#7 (wellFormed_of_lt .w8 (.id8 .spl) v.toNat rfl v.isLt) rfl rfl
theorem LegalHeader.set8BPL (v : BitVec 8) : LegalHeader.Statement (.set8BPL v) :=
  LegalHeader.of_header _ 0x4C#7 (wellFormed_of_lt .w8 (.id8 .bpl) v.toNat rfl v.isLt) rfl rfl
theorem LegalHeader.set8DIL (v : BitVec 8) : LegalHeader.Statement (.set8DIL v) :=
  LegalHeader.of_header _ 0x4D#7 (wellFormed_of_lt .w8 (.id8 .dil) v.toNat rfl v.isLt) rfl rfl
theorem LegalHeader.set8SIL (v : BitVec 8) : LegalHeader.Statement (.set8SIL v) :=
  LegalHeader.of_header _ 0x4E#7 (wellFormed_of_lt .w8 (.id8 .sil) v.toNat rfl v.isLt) rfl rfl
theorem LegalHeader.set8DH (v : BitVec 8) : LegalHeader.Statement (.set8DH v) :=
  LegalHeader.of_header _ 0x4F#7 (wellFormed_of_lt .w8 (.id8 .dh) v.toNat rfl v.isLt) rfl rfl
theorem LegalHeader.set16AX (v : BitVec 16) : LegalHeader.Statement (.set16AX v) :=
  LegalHeader.of_header _ 0x50#7 (wellFormed_of_lt .w16 (.id16 .ax) v.toNat rfl v.isLt) rfl rfl
theorem LegalHeader.set16BX (v : BitVec 16) : LegalHeader.Statement (.set16BX v) :=
  LegalHeader.of_header _ 0x51#7 (wellFormed_of_lt .w16 (.id16 .bx) v.toNat rfl v.isLt) rfl rfl
theorem LegalHeader.set16CX (v : BitVec 16) : LegalHeader.Statement (.set16CX v) :=
  LegalHeader.of_header _ 0x52#7 (wellFormed_of_lt .w16 (.id16 .cx) v.toNat rfl v.isLt) rfl rfl
theorem LegalHeader.set16SP (v : BitVec 16) : LegalHeader.Statement (.set16SP v) :=
  LegalHeader.of_header _ 0x53#7 (wellFormed_of_lt .w16 (.id16 .sp) v.toNat rfl v.isLt) rfl rfl
theorem LegalHeader.set16BP (v : BitVec 16) : LegalHeader.Statement (.set16BP v) :=
  LegalHeader.of_header _ 0x54#7 (wellFormed_of_lt .w16 (.id16 .bp) v.toNat rfl v.isLt) rfl rfl
theorem LegalHeader.set16DI (v : BitVec 16) : LegalHeader.Statement (.set16DI v) :=
  LegalHeader.of_header _ 0x55#7 (wellFormed_of_lt .w16 (.id16 .di) v.toNat rfl v.isLt) rfl rfl
theorem LegalHeader.set16SI (v : BitVec 16) : LegalHeader.Statement (.set16SI v) :=
  LegalHeader.of_header _ 0x56#7 (wellFormed_of_lt .w16 (.id16 .si) v.toNat rfl v.isLt) rfl rfl
theorem LegalHeader.set16DX (v : BitVec 16) : LegalHeader.Statement (.set16DX v) :=
  LegalHeader.of_header _ 0x57#7 (wellFormed_of_lt .w16 (.id16 .dx) v.toNat rfl v.isLt) rfl rfl
theorem LegalHeader.set32EAX (v : BitVec 32) : LegalHeader.Statement (.set32EAX v) :=
  LegalHeader.of_header _ 0x60#7 (wellFormed_of_lt .w32 (.id32 .eax) v.toNat rfl v.isLt) rfl rfl
theorem LegalHeader.set32EBX (v : BitVec 32) : LegalHeader.Statement (.set32EBX v) :=
  LegalHeader.of_header _ 0x61#7 (wellFormed_of_lt .w32 (.id32 .ebx) v.toNat rfl v.isLt) rfl rfl
theorem LegalHeader.set32ECX (v : BitVec 32) : LegalHeader.Statement (.set32ECX v) :=
  LegalHeader.of_header _ 0x62#7 (wellFormed_of_lt .w32 (.id32 .ecx) v.toNat rfl v.isLt) rfl rfl
theorem LegalHeader.set32ESP (v : BitVec 32) : LegalHeader.Statement (.set32ESP v) :=
  LegalHeader.of_header _ 0x63#7 (wellFormed_of_lt .w32 (.id32 .esp) v.toNat rfl v.isLt) rfl rfl
theorem LegalHeader.set32EBP (v : BitVec 32) : LegalHeader.Statement (.set32EBP v) :=
  LegalHeader.of_header _ 0x64#7 (wellFormed_of_lt .w32 (.id32 .ebp) v.toNat rfl v.isLt) rfl rfl
theorem LegalHeader.set32EDI (v : BitVec 32) : LegalHeader.Statement (.set32EDI v) :=
  LegalHeader.of_header _ 0x65#7 (wellFormed_of_lt .w32 (.id32 .edi) v.toNat rfl v.isLt) rfl rfl
theorem LegalHeader.set32ESI (v : BitVec 32) : LegalHeader.Statement (.set32ESI v) :=
  LegalHeader.of_header _ 0x66#7 (wellFormed_of_lt .w32 (.id32 .esi) v.toNat rfl v.isLt) rfl rfl
theorem LegalHeader.set32EDX (v : BitVec 32) : LegalHeader.Statement (.set32EDX v) :=
  LegalHeader.of_header _ 0x67#7 (wellFormed_of_lt .w32 (.id32 .edx) v.toNat rfl v.isLt) rfl rfl
theorem LegalHeader.set64RAX (v : BitVec 64) : LegalHeader.Statement (.set64RAX v) :=
  LegalHeader.of_header _ 0x70#7 (wellFormed_of_lt .w64 (.id64 .rax) v.toNat rfl v.isLt) rfl rfl
theorem LegalHeader.set64RBX (v : BitVec 64) : LegalHeader.Statement (.set64RBX v) :=
  LegalHeader.of_header _ 0x71#7 (wellFormed_of_lt .w64 (.id64 .rbx) v.toNat rfl v.isLt) rfl rfl
theorem LegalHeader.set64RCX (v : BitVec 64) : LegalHeader.Statement (.set64RCX v) :=
  LegalHeader.of_header _ 0x72#7 (wellFormed_of_lt .w64 (.id64 .rcx) v.toNat rfl v.isLt) rfl rfl
theorem LegalHeader.set64RSP (v : BitVec 64) : LegalHeader.Statement (.set64RSP v) :=
  LegalHeader.of_header _ 0x73#7 (wellFormed_of_lt .w64 (.id64 .rsp) v.toNat rfl v.isLt) rfl rfl
theorem LegalHeader.set64RBP (v : BitVec 64) : LegalHeader.Statement (.set64RBP v) :=
  LegalHeader.of_header _ 0x74#7 (wellFormed_of_lt .w64 (.id64 .rbp) v.toNat rfl v.isLt) rfl rfl
theorem LegalHeader.set64RDI (v : BitVec 64) : LegalHeader.Statement (.set64RDI v) :=
  LegalHeader.of_header _ 0x75#7 (wellFormed_of_lt .w64 (.id64 .rdi) v.toNat rfl v.isLt) rfl rfl
theorem LegalHeader.set64RSI (v : BitVec 64) : LegalHeader.Statement (.set64RSI v) :=
  LegalHeader.of_header _ 0x76#7 (wellFormed_of_lt .w64 (.id64 .rsi) v.toNat rfl v.isLt) rfl rfl
theorem LegalHeader.set64RDX (v : BitVec 64) : LegalHeader.Statement (.set64RDX v) :=
  LegalHeader.of_header _ 0x77#7 (wellFormed_of_lt .w64 (.id64 .rdx) v.toNat rfl v.isLt) rfl rfl

end Sys2Proof.Laws
end

