-- ==== Sys2Proof/Laws/Run.lean ====
section
/-! SUPPORT. Runs, one step at a time. -/

namespace Sys2Proof.Machine

/-- A run of any machine whose first step answers a next state goes on from there. -/
theorem core_run_succ (M : Host.Core) (n : Nat) (s t : M.State) (h : M.step s = .next t) : M.run (n + 1) s = M.run n t := by
  simp only [Host.Core.run, h]

/-- A run whose first step answers a next state goes on from there. -/
theorem runSteps_succ (n : Nat) (s t : State) (h : step s = .next t) : runSteps (n + 1) s = runSteps n t :=
  core_run_succ Sys2Proof.core n s t h

/-- A run of no step answers the state. -/
@[simp] theorem runSteps_zero (s : State) : runSteps 0 s = .next s := rfl

/-- A run to the end of no input answers the state. -/
theorem runInputs_nil (s : State) (h : s.inputs = []) : runInputs s = .next s := by
  unfold runInputs
  rw [h]
  rfl

/-- A run to the end of the inputs takes the first and goes on from there. -/
theorem runInputs_cons (s t : State) (p : PortIn) (ps : List PortIn) (hs : s.inputs = p :: ps) (ht : t.inputs = ps)
    (h : step s = .next t) : runInputs s = runInputs t := by
  unfold runInputs
  rw [hs, ht]
  exact runSteps_succ ps.length s t h

end Sys2Proof.Machine
end

