-- ==== Sys2Proof/Laws/Text.lean ====
section
/-! SUPPORT. The small laws of the lexer (what a word, a symbol and a space add to the tokens), of hexadecimal digits, and of the
printer, so that no proof about text unfolds them again. -/

namespace Sys2Proof.Text

/-- Word characters only grow the current word. -/
theorem lex_word (ds : List Char) (hds : ∀ c ∈ ds, isWordChar c = true) (cs acc : List Char) :
    lex (ds ++ cs) acc false = lex cs (ds.reverse ++ acc) false := by
  induction ds generalizing acc with
  | nil => rfl
  | cons d ds ih =>
    have hd := hds d (by simp)
    rw [List.cons_append, lex]
    simp only [hd, if_true, Bool.false_eq_true, if_false]
    rw [ih (fun c hc => hds c (by simp [hc]))]
    simp

/-- A symbol closes the current word and is a token. -/
theorem lex_symbol (c : Char) (t : Token) (cs acc : List Char) (hw : isWordChar c = false) (he : c ≠ '=') (hs : c ≠ ' ')
    (ht : symbol c = some t) : lex (c :: cs) acc false = (lex cs [] false).map fun ts => closeWord acc (t :: ts) := by
  rw [lex]
  simp [hw, he, hs, ht]

/-- A space closes the current word and is no token. -/
theorem lex_space (cs acc : List Char) : lex (' ' :: cs) acc false = (lex cs [] false).map (closeWord acc) := by
  rw [lex]
  simp [isWordChar]

/-- `==` closes the current word and is a token. -/
theorem lex_eqeq (cs acc : List Char) :
    lex ('=' :: '=' :: cs) acc false = (lex cs [] false).map fun ts => closeWord acc (.eqeq :: ts) := by
  have h : lex ('=' :: cs) [] true = (lex cs [] false).map (Token.eqeq :: ·) := by
    rw [lex]
    simp
  rw [lex]
  simp [isWordChar, h, Function.comp_def]

/-- No word closes to nothing. -/
@[simp] theorem closeWord_nil (ts : List Token) : closeWord [] ts = ts := rfl

/-- A word that was read closes to its token. -/
theorem closeWord_reverse (w : List Char) (ts : List Token) (h : w ≠ []) : closeWord w.reverse ts = .word w :: ts := by
  simp [closeWord, h]

/-- The digit of a value below 16 is a word character other than the underscore, and reads as the value. -/
theorem digitChar_spec : ∀ d, d < 16 → isWordChar (digitChar d) = true ∧ hexDigit (digitChar d) = some d ∧ digitChar d ≠ '_' := by
  decide

/-- Printed digits are word characters. -/
theorem hexDigits_isWordChar (n v : Nat) : ∀ c ∈ hexDigits n v, isWordChar c = true := by
  induction n with
  | zero => simp [hexDigits]
  | succ n ih =>
    intro c hc
    simp only [hexDigits, List.mem_cons] at hc
    rcases hc with rfl | hc
    · exact (digitChar_spec _ (Nat.mod_lt _ (by decide))).1
    · exact ih c hc

/-- Mnemonics of operations are words. -/
theorem opName_isWordChar (o : Op) (w : WidthClass) : ∀ c ∈ opName o w, isWordChar c = true := by
  rw [← List.all_eq_true]
  cases o <;> cases w <;> rfl

/-- Mnemonics of identifiers are words. -/
theorem idName_isWordChar (i : AnyId) : ∀ c ∈ idName i, isWordChar c = true := by
  rw [← List.all_eq_true]
  cases i <;> (rename_i i; cases i <;> rfl)

/-- No mnemonic of an operation is empty. -/
theorem opName_ne_nil (o : Op) (w : WidthClass) : opName o w ≠ [] := by
  cases o <;> cases w <;> decide

/-- No mnemonic of an identifier is empty. -/
theorem idName_ne_nil (i : AnyId) : idName i ≠ [] := by
  cases i <;> (rename_i i; cases i <;> decide)

end Sys2Proof.Text
end

