-- ==== Sys2Proof/Tests/Slice0.lean ====
section
/-! SUPPORT. Our own tests: each check refuses an ill-formed term, every row of the opcode table decodes from a word written out by the
tables of R64 to R67, single steps of the vectors of 95_test_vectors.md (named in the docstrings), and for every statement that has
hypotheses a state and operands that meet them. -/

namespace Sys2Proof.Tests

open Sys2Proof Sys2Proof.Machine Sys2Proof.Claims

/-! ## Helpers -/

/-- The cells and the response after one cycle with the ports at `p`, from the cells `x`. -/
def after (x : Cells) (p : PortIn) : Option (Cells × Response) :=
  match step ⟨x, [p], Response.none, []⟩ with
  | .next t => some (t.cells, t.rsp)
  | .fault _ => none
  | .refused _ => none

/-- The response to a presented word, from the cells `x`, where the cells do not change. -/
def reads (x : Cells) (cw : CmdWord) (d : Word) : Prop := after x (.present cw) = some (x, ⟨true, false, d⟩)

/-- A presented word turns the cells `x` into `y` and returns nothing. -/
def writes (x : Cells) (cw : CmdWord) (y : Cells) : Prop := after x (.present cw) = some (y, ⟨true, false, 0#64⟩)

/-- A presented word is answered with an error and changes no cell. -/
def errs (x : Cells) (cw : CmdWord) : Prop := after x (.present cw) = some (x, ⟨true, true, 0#64⟩)

/-- Cells that are zero but for one. -/
def one (c : Role) (v : Word) : Cells := Cells.zero.write c v

/-- Every cell at 0x0123456789ABCDEF, the start of every row of section 4. -/
def full : Cells :=
  let v : Word := 0x0123456789ABCDEF#64
  ⟨v, v, v, v, v, v, v, v⟩

/-- A state with the given cells and inputs. -/
def at_ (x : Cells) (ps : List PortIn) : State := ⟨x, ps, Response.none, []⟩

/-! ## The checks refuse ill-formed terms -/

/-- A view of width 0 is outside the masking unit's domain (R97). -/
theorem test_view_of_width_zero_refused : (View.wellFormed ⟨.base, 0, 0⟩) = false := by decide

/-- A view that reaches past bit 63 is outside the masking unit's domain (R97). -/
theorem test_view_past_the_cell_refused : (View.wellFormed ⟨.base, 8, 64⟩) = false := by decide

/-- `get8(RAX)` names an identifier of another class (R79). -/
theorem test_wrong_class_refused : (RawCommand.identInClass ⟨.get, .w8, .id64 .rax, none⟩) = false := by decide

/-- A get with a value, and a set without one (R79, R81). -/
theorem test_wrong_value_shape_refused :
    (RawCommand.valueShape ⟨.get, .w8, .id8 .al, some 1⟩) = false ∧ (RawCommand.valueShape ⟨.set, .w8, .id8 .al, none⟩) = false := by decide

/-- `set8(AL, 0x100)`: the value does not fit in 8 bits (R79); 0xFF does. -/
theorem test_value_too_wide_refused :
    (RawCommand.valueFits ⟨.set, .w8, .id8 .al, some 0x100⟩) = false ∧ (RawCommand.valueFits ⟨.set, .w8, .id8 .al, some 0xFF⟩) = true := by decide

/-- Each check alone makes a raw command ill formed. -/
theorem test_ill_formed_commands_refused :
    (RawCommand.wellFormed ⟨.get, .w8, .id64 .rax, none⟩) = false ∧ (RawCommand.wellFormed ⟨.set, .w8, .id8 .al, none⟩) = false ∧
      (RawCommand.wellFormed ⟨.set, .w8, .id8 .al, some 0x100⟩) = false := by decide

/-- The assembler refuses text with no closing parenthesis, with an unknown operation and with a decimal value (R79). -/
theorem test_text_refused :
    Text.assemble "get8(AL".toList = .error .badForm ∧ Text.assemble "mov8(AL)".toList = .error .unknownOperation ∧
      Text.assemble "set8(AL, 10)".toList = .error .badNumeral := ⟨rfl, rfl, rfl⟩

/-- One ill-formed command refuses the whole text, with the name of the first (the model's choice, assumption 14). -/
theorem test_text_refused_as_a_whole :
    Text.assemble "get8(AL); get8(RAX); set8(AL, 0x100)".toList = .error .wrongClass := rfl

/-- One text may mix line ends and `;`, with blank lines (the model's choice, assumption 11). -/
theorem test_text_mixes_separators :
    Text.assembleWords "get8(AL); get8(AH)\n\nget64(RAX)".toList =
      .ok [0x000000000000000000#71, 0x080000000000000000#71, 0x300000000000000000#71] := rfl

/-- Scenario S1 as text, with its assertion (R79), gives the words of its row. -/
theorem test_text_of_scenario_one :
    Text.assembleWords "set64(RAX, 0x1122334455667788); get32(EAX) == 0x55667788".toList =
      .ok [0x701122334455667788#71, 0x200000000000000000#71] := rfl

/-! ## Decoding: the words of the opcode table, as 95_test_vectors.md section 4 writes them out -/

/-- The 8 words of `get64`: each decodes to its instruction (R66, R73). -/
theorem test_decode_get64 :
    [
      (0x300000000000000000, .get64RAX), (0x310000000000000000, .get64RBX), (0x320000000000000000, .get64RCX),
      (0x330000000000000000, .get64RSP), (0x340000000000000000, .get64RBP), (0x350000000000000000, .get64RDI),
      (0x360000000000000000, .get64RSI), (0x370000000000000000, .get64RDX)].all
      (fun p => decide (decodeTableWord 72 p.1 = some p.2)) = true := by decide

/-- The 8 words of `get32`: each decodes to its instruction (R66, R73). -/
theorem test_decode_get32 :
    [
      (0x200000000000000000, .get32EAX), (0x210000000000000000, .get32EBX), (0x220000000000000000, .get32ECX),
      (0x230000000000000000, .get32ESP), (0x240000000000000000, .get32EBP), (0x250000000000000000, .get32EDI),
      (0x260000000000000000, .get32ESI), (0x270000000000000000, .get32EDX)].all
      (fun p => decide (decodeTableWord 72 p.1 = some p.2)) = true := by decide

/-- The 8 words of `get16`: each decodes to its instruction (R66, R73). -/
theorem test_decode_get16 :
    [
      (0x100000000000000000, .get16AX), (0x110000000000000000, .get16BX), (0x120000000000000000, .get16CX),
      (0x130000000000000000, .get16SP), (0x140000000000000000, .get16BP), (0x150000000000000000, .get16DI),
      (0x160000000000000000, .get16SI), (0x170000000000000000, .get16DX)].all
      (fun p => decide (decodeTableWord 72 p.1 = some p.2)) = true := by decide

/-- The 12 words of `get8`: each decodes to its instruction (R67, R73). -/
theorem test_decode_get8 :
    [
      (0x000000000000000000, .get8AL), (0x010000000000000000, .get8BL), (0x020000000000000000, .get8CL),
      (0x070000000000000000, .get8DL), (0x080000000000000000, .get8AH), (0x090000000000000000, .get8BH),
      (0x0A0000000000000000, .get8CH), (0x0B0000000000000000, .get8SPL), (0x0C0000000000000000, .get8BPL),
      (0x0D0000000000000000, .get8DIL), (0x0E0000000000000000, .get8SIL), (0x0F0000000000000000, .get8DH)].all
      (fun p => decide (decodeTableWord 72 p.1 = some p.2)) = true := by decide

/-- The 8 words of `set64`: each decodes to its instruction (R66, R73). -/
theorem test_decode_set64 :
    [
      (0x70A5C3E17F2B4D6980, .set64RAX 0xA5C3E17F2B4D6980#64), (0x71A5C3E17F2B4D6980, .set64RBX 0xA5C3E17F2B4D6980#64),
      (0x72A5C3E17F2B4D6980, .set64RCX 0xA5C3E17F2B4D6980#64), (0x73A5C3E17F2B4D6980, .set64RSP 0xA5C3E17F2B4D6980#64),
      (0x74A5C3E17F2B4D6980, .set64RBP 0xA5C3E17F2B4D6980#64), (0x75A5C3E17F2B4D6980, .set64RDI 0xA5C3E17F2B4D6980#64),
      (0x76A5C3E17F2B4D6980, .set64RSI 0xA5C3E17F2B4D6980#64), (0x77A5C3E17F2B4D6980, .set64RDX 0xA5C3E17F2B4D6980#64)].all
      (fun p => decide (decodeTableWord 72 p.1 = some p.2)) = true := by decide

/-- The 8 words of `set32`: each decodes to its instruction (R66, R73). -/
theorem test_decode_set32 :
    [
      (0x60000000002B4D6980, .set32EAX 0x2B4D6980#32), (0x61000000002B4D6980, .set32EBX 0x2B4D6980#32),
      (0x62000000002B4D6980, .set32ECX 0x2B4D6980#32), (0x63000000002B4D6980, .set32ESP 0x2B4D6980#32),
      (0x64000000002B4D6980, .set32EBP 0x2B4D6980#32), (0x65000000002B4D6980, .set32EDI 0x2B4D6980#32),
      (0x66000000002B4D6980, .set32ESI 0x2B4D6980#32), (0x67000000002B4D6980, .set32EDX 0x2B4D6980#32)].all
      (fun p => decide (decodeTableWord 72 p.1 = some p.2)) = true := by decide

/-- The 8 words of `set16`: each decodes to its instruction (R66, R73). -/
theorem test_decode_set16 :
    [
      (0x500000000000006980, .set16AX 0x6980#16), (0x510000000000006980, .set16BX 0x6980#16),
      (0x520000000000006980, .set16CX 0x6980#16), (0x530000000000006980, .set16SP 0x6980#16),
      (0x540000000000006980, .set16BP 0x6980#16), (0x550000000000006980, .set16DI 0x6980#16),
      (0x560000000000006980, .set16SI 0x6980#16), (0x570000000000006980, .set16DX 0x6980#16)].all
      (fun p => decide (decodeTableWord 72 p.1 = some p.2)) = true := by decide

/-- The 12 words of `set8`: each decodes to its instruction (R67, R73). -/
theorem test_decode_set8 :
    [
      (0x400000000000000080, .set8AL 0x80#8), (0x410000000000000080, .set8BL 0x80#8), (0x420000000000000080, .set8CL 0x80#8),
      (0x470000000000000080, .set8DL 0x80#8), (0x480000000000000080, .set8AH 0x80#8), (0x490000000000000080, .set8BH 0x80#8),
      (0x4A0000000000000080, .set8CH 0x80#8), (0x4B0000000000000080, .set8SPL 0x80#8), (0x4C0000000000000080, .set8BPL 0x80#8),
      (0x4D0000000000000080, .set8DIL 0x80#8), (0x4E0000000000000080, .set8SIL 0x80#8), (0x4F0000000000000080, .set8DH 0x80#8)].all
      (fun p => decide (decodeTableWord 72 p.1 = some p.2)) = true := by decide

/-- Every one of the 56 reserved headers is refused, whatever its data field (R72). -/
theorem test_decode_reserved :
    reservedList.all (fun h => decide (decodeTableWord 72 (h * 2 ^ 64) = none) && decide (decodeTableWord 72 (h * 2 ^ 64 + 255) = none)) = true := by
  decide

/-- Bits 71 and up of a table word are no wire of the port (assumption 7). -/
theorem test_table_word_drops_bit_71 : decodeTableWord 72 0x80_0000_0000_0000_0000 = some .get8AL := by decide

/-- The two reasons a header is reserved (R72): VR-1 and VR-4. -/
theorem test_reserved_reasons :
    decode 0x4300000000000000FF#71 = .error .noLowByte ∧ decode 0x7BFFFFFFFFFFFFFFFF#71 = .error .idBit3 := ⟨rfl, rfl⟩

/-- The sizes of R8, R9 and R72 are those of the types and of the tables. -/
theorem test_sizes :
    Config.cellCount = 8 ∧ Config.xlen = 64 ∧ Config.commandBits = 1 + 2 + 4 + 64 ∧ Config.responseBits = 1 + 1 + 64 ∧
      Config.identifierCount = 8 + 8 + 8 + 12 ∧ Config.legalHeaderCount + reservedList.length = 2 ^ 7 := by decide

/-! ## Single steps: the round trips of 95_test_vectors.md section 4 -/

/-- From all cells at 0x0123456789ABCDEF, each `set64` of the value 0xA5C3E17F2B4D6980 writes the row's "cell after" and no other cell, and the `get64` of the same identifier
returns the value (section 4). -/
theorem test_round_trip_64 :
    ([
      (.accumulator, 0x70A5C3E17F2B4D6980#71, 0x300000000000000000#71, 0xA5C3E17F2B4D6980#64),
      (.base, 0x71A5C3E17F2B4D6980#71, 0x310000000000000000#71, 0xA5C3E17F2B4D6980#64),
      (.counter, 0x72A5C3E17F2B4D6980#71, 0x320000000000000000#71, 0xA5C3E17F2B4D6980#64),
      (.stackPointer, 0x73A5C3E17F2B4D6980#71, 0x330000000000000000#71, 0xA5C3E17F2B4D6980#64),
      (.stackBasePointer, 0x74A5C3E17F2B4D6980#71, 0x340000000000000000#71, 0xA5C3E17F2B4D6980#64),
      (.destination, 0x75A5C3E17F2B4D6980#71, 0x350000000000000000#71, 0xA5C3E17F2B4D6980#64),
      (.source, 0x76A5C3E17F2B4D6980#71, 0x360000000000000000#71, 0xA5C3E17F2B4D6980#64),
      (.data, 0x77A5C3E17F2B4D6980#71, 0x370000000000000000#71, 0xA5C3E17F2B4D6980#64)] : List (Role × CmdWord × CmdWord × Word)).all
      (fun r => decide (after full (.present r.2.1) = some (full.write r.1 r.2.2.2, ⟨true, false, 0#64⟩)) &&
        decide (after (full.write r.1 r.2.2.2) (.present r.2.2.1) = some (full.write r.1 r.2.2.2, ⟨true, false, 0xA5C3E17F2B4D6980#64⟩))) = true := by decide

/-- From all cells at 0x0123456789ABCDEF, each `set32` of the value 0x2B4D6980 writes the row's "cell after" and no other cell, and the `get32` of the same identifier
returns the value (section 4). -/
theorem test_round_trip_32 :
    ([
      (.accumulator, 0x60000000002B4D6980#71, 0x200000000000000000#71, 0x012345672B4D6980#64),
      (.base, 0x61000000002B4D6980#71, 0x210000000000000000#71, 0x012345672B4D6980#64),
      (.counter, 0x62000000002B4D6980#71, 0x220000000000000000#71, 0x012345672B4D6980#64),
      (.stackPointer, 0x63000000002B4D6980#71, 0x230000000000000000#71, 0x012345672B4D6980#64),
      (.stackBasePointer, 0x64000000002B4D6980#71, 0x240000000000000000#71, 0x012345672B4D6980#64),
      (.destination, 0x65000000002B4D6980#71, 0x250000000000000000#71, 0x012345672B4D6980#64),
      (.source, 0x66000000002B4D6980#71, 0x260000000000000000#71, 0x012345672B4D6980#64),
      (.data, 0x67000000002B4D6980#71, 0x270000000000000000#71, 0x012345672B4D6980#64)] : List (Role × CmdWord × CmdWord × Word)).all
      (fun r => decide (after full (.present r.2.1) = some (full.write r.1 r.2.2.2, ⟨true, false, 0#64⟩)) &&
        decide (after (full.write r.1 r.2.2.2) (.present r.2.2.1) = some (full.write r.1 r.2.2.2, ⟨true, false, 0x2B4D6980#64⟩))) = true := by decide

/-- From all cells at 0x0123456789ABCDEF, each `set16` of the value 0x6980 writes the row's "cell after" and no other cell, and the `get16` of the same identifier
returns the value (section 4). -/
theorem test_round_trip_16 :
    ([
      (.accumulator, 0x500000000000006980#71, 0x100000000000000000#71, 0x0123456789AB6980#64),
      (.base, 0x510000000000006980#71, 0x110000000000000000#71, 0x0123456789AB6980#64),
      (.counter, 0x520000000000006980#71, 0x120000000000000000#71, 0x0123456789AB6980#64),
      (.stackPointer, 0x530000000000006980#71, 0x130000000000000000#71, 0x0123456789AB6980#64),
      (.stackBasePointer, 0x540000000000006980#71, 0x140000000000000000#71, 0x0123456789AB6980#64),
      (.destination, 0x550000000000006980#71, 0x150000000000000000#71, 0x0123456789AB6980#64),
      (.source, 0x560000000000006980#71, 0x160000000000000000#71, 0x0123456789AB6980#64),
      (.data, 0x570000000000006980#71, 0x170000000000000000#71, 0x0123456789AB6980#64)] : List (Role × CmdWord × CmdWord × Word)).all
      (fun r => decide (after full (.present r.2.1) = some (full.write r.1 r.2.2.2, ⟨true, false, 0#64⟩)) &&
        decide (after (full.write r.1 r.2.2.2) (.present r.2.2.1) = some (full.write r.1 r.2.2.2, ⟨true, false, 0x6980#64⟩))) = true := by decide

/-- From all cells at 0x0123456789ABCDEF, each `set8` of the value 0x80 writes the row's "cell after" and no other cell, and the `get8` of the same identifier
returns the value (section 4). -/
theorem test_round_trip_8 :
    ([
      (.accumulator, 0x400000000000000080#71, 0x000000000000000000#71, 0x0123456789ABCD80#64),
      (.base, 0x410000000000000080#71, 0x010000000000000000#71, 0x0123456789ABCD80#64),
      (.counter, 0x420000000000000080#71, 0x020000000000000000#71, 0x0123456789ABCD80#64),
      (.data, 0x470000000000000080#71, 0x070000000000000000#71, 0x0123456789ABCD80#64),
      (.accumulator, 0x480000000000000080#71, 0x080000000000000000#71, 0x0123456789AB80EF#64),
      (.base, 0x490000000000000080#71, 0x090000000000000000#71, 0x0123456789AB80EF#64),
      (.counter, 0x4A0000000000000080#71, 0x0A0000000000000000#71, 0x0123456789AB80EF#64),
      (.stackPointer, 0x4B0000000000000080#71, 0x0B0000000000000000#71, 0x0123456789AB80EF#64),
      (.stackBasePointer, 0x4C0000000000000080#71, 0x0C0000000000000000#71, 0x0123456789AB80EF#64),
      (.destination, 0x4D0000000000000080#71, 0x0D0000000000000000#71, 0x0123456789AB80EF#64),
      (.source, 0x4E0000000000000080#71, 0x0E0000000000000000#71, 0x0123456789AB80EF#64),
      (.data, 0x4F0000000000000080#71, 0x0F0000000000000000#71, 0x0123456789AB80EF#64)] : List (Role × CmdWord × CmdWord × Word)).all
      (fun r => decide (after full (.present r.2.1) = some (full.write r.1 r.2.2.2, ⟨true, false, 0#64⟩)) &&
        decide (after (full.write r.1 r.2.2.2) (.present r.2.2.1) = some (full.write r.1 r.2.2.2, ⟨true, false, 0x80#64⟩))) = true := by decide

/-! ## Single steps: the worked examples and corner cases -/

/-- S1: the low half of 0x1122334455667788. -/
theorem test_scenario_1 : reads (one .accumulator 0x1122334455667788#64) 0x200000000000000000#71 0x55667788#64 := rfl

/-- S2: `set16(AX, 0xAAAA)` keeps bits 63:16. -/
theorem test_scenario_2 :
    writes (one .accumulator 0x1122334455667788#64) 0x50000000000000AAAA#71 (one .accumulator 0x112233445566AAAA#64) := rfl

/-- S3: `set8(AL, 0xFF)` on a file of zeros. -/
theorem test_scenario_3 : writes Cells.zero 0x4000000000000000FF#71 (one .accumulator 0xFF#64) := rfl

/-- S4: `set8(AH, 0xFF)` on a file of zeros, and `get8(AL)` after it. -/
theorem test_scenario_4 :
    writes Cells.zero 0x4800000000000000FF#71 (one .accumulator 0xFF00#64) ∧
      reads (one .accumulator 0xFF00#64) 0x000000000000000000#71 0x00#64 := ⟨rfl, rfl⟩

/-- S5: `set32(EAX, 0xFFFFFFFF)` keeps bits 63:32. -/
theorem test_scenario_5 :
    writes (one .accumulator 0xDEADBEEF00000000#64) 0x6000000000FFFFFFFF#71 (one .accumulator 0xDEADBEEFFFFFFFFF#64) := rfl

/-- V64-4: a get of one cell is blind to another. V64-8: a set of one cell leaves two others. -/
theorem test_cells_are_separate :
    reads (one .data 0xFEDCBA9876543210#64) 0x300000000000000000#71 0#64 ∧
      writes ((one .accumulator 0x1111111111111111#64).write .counter 0x3333333333333333#64) 0x766666666666666666#71
        (((one .accumulator 0x1111111111111111#64).write .counter 0x3333333333333333#64).write .source 0x6666666666666666#64) := ⟨rfl, rfl⟩

/-- V32-2, V16-2, V8-13: no sign extension. -/
theorem test_gets_do_not_sign_extend :
    reads (one .base 0xFFFFFFFF80000000#64) 0x210000000000000000#71 0x80000000#64 ∧
      reads (one .stackPointer 0xFFFF8000#64) 0x130000000000000000#71 0x8000#64 ∧
      reads (one .data 0x8000000000000080#64) 0x070000000000000000#71 0x80#64 := ⟨rfl, rfl, rfl⟩

/-- V32-5: a 32-bit value with bit 31 set is not extended into bits 63:32. -/
theorem test_set32_does_not_sign_extend : writes Cells.zero 0x620000000080000001#71 (one .counter 0x80000001#64) := rfl

/-- V8-5, V8-7: SPL writes and DIL reads bits 15:8. -/
theorem test_spl_and_dil_are_high_bytes :
    writes Cells.zero 0x4B00000000000000AB#71 (one .stackPointer 0xAB00#64) ∧
      reads (one .destination 0x12AB#64) 0x0D0000000000000000#71 0x12#64 := ⟨rfl, rfl⟩

/-- V8-4, V8-8: a high-byte set of zero keeps bits 63:16 and 7:0. -/
theorem test_high_byte_cleared :
    writes (one .counter 0xFFFFFFFFFFFFFFFF#64) 0x4A0000000000000000#71 (one .counter 0xFFFFFFFFFFFF00FF#64) ∧
      writes (one .source 0xFFFFFFFFFFFFFFFF#64) 0x4E0000000000000000#71 (one .source 0xFFFFFFFFFFFF00FF#64) := ⟨rfl, rfl⟩

/-- VE-1 to VE-4: the data bits from the width up are ignored by a set. -/
theorem test_sets_ignore_high_data :
    writes Cells.zero 0x40FFFFFFFFFFFFFF12#71 (one .accumulator 0x12#64) ∧
      writes (one .accumulator 0xFFFF#64) 0x48000000000000FF00#71 (one .accumulator 0xFF#64) ∧
      writes Cells.zero 0x60FFFFFFFF00000001#71 (one .accumulator 1#64) ∧
      writes Cells.zero 0x500000000000010000#71 Cells.zero := ⟨rfl, rfl, rfl, rfl⟩

/-- VE-5: a get ignores data. VE-6: set64 uses all of it. -/
theorem test_get_ignores_data_and_set64_uses_it :
    reads (one .accumulator 0x1122334455667788#64) 0x30DEADBEEFDEADBEEF#71 0x1122334455667788#64 ∧
      writes Cells.zero 0x77FFFFFFFFFFFFFFFF#71 (one .data 0xFFFFFFFFFFFFFFFF#64) := ⟨rfl, rfl⟩

/-- VR-1 to VR-6: reserved headers answer with an error and change nothing. -/
theorem test_reserved_headers :
    errs (one .stackPointer 0x1111111111111111#64) 0x4300000000000000FF#71 ∧
      errs (one .stackPointer 0x1111111111111111#64) 0x030000000000000000#71 ∧
      errs (one .stackPointer 0x1111111111111111#64) 0x3B0000000000000000#71 ∧
      errs (one .stackPointer 0x1111111111111111#64) 0x7BFFFFFFFFFFFFFFFF#71 ∧
      errs (one .stackPointer 0x1111111111111111#64) 0x58000000000000AAAA#71 ∧
      errs (one .stackPointer 0x1111111111111111#64) 0x2F0000000000000000#71 := ⟨rfl, rfl, rfl, rfl, rfl, rfl⟩

/-- The legal neighbour of VR-1: `set8(SPL, 0xFF)`. -/
theorem test_legal_neighbour :
    writes (one .stackPointer 0x1111111111111111#64) 0x4B00000000000000FF#71 (one .stackPointer 0x111111111111FF11#64) := rfl

/-- VZ-1 to VZ-3: a reset cycle clears every cell, whatever else the ports hold, and answers nothing. -/
theorem test_reset_wins :
    after (one .data 0xFFFFFFFFFFFFFFFF#64) ⟨true, false, 0#71⟩ = some (Cells.zero, ⟨false, false, 0#64⟩) ∧
      after (one .accumulator 0x1122334455667788#64) ⟨true, true, 0x70FFFFFFFFFFFFFFFF#71⟩ = some (Cells.zero, ⟨false, false, 0#64⟩) ∧
      after (one .accumulator 0x1122334455667788#64) ⟨true, true, 0x7F0000000000000000#71⟩ = some (Cells.zero, ⟨false, false, 0#64⟩) :=
  ⟨rfl, rfl, rfl⟩

/-- VZ-4: without cmd_valid the word on the port is not looked at. -/
theorem test_idle_ignores_the_word :
    after (one .accumulator 0x1122334455667788#64) ⟨false, false, 0x70FFFFFFFFFFFFFFFF#71⟩ =
      some (one .accumulator 0x1122334455667788#64, ⟨false, false, 0#64⟩) := rfl

/-- Step 2 of P5: the fault is recorded, and the machine stands ready for step 3. -/
theorem test_fault_recorded :
    step (at_ (one .counter 0x0123456789ABCDEF#64) [.present 0x4300000000000000FF#71, .present 0x320000000000000000#71]) =
      .next ⟨one .counter 0x0123456789ABCDEF#64, [.present 0x320000000000000000#71], ⟨true, true, 0#64⟩, [.illegalCommand 0x43#7]⟩ := rfl

/-- A table word placed after reset is the first that runs: `set64(RBX, 0xA5A5A5A5A5A5A5A5)` (V64-6's word). -/
theorem test_first_instruction :
    step (State.reset.withFetchWord 72 0x71A5A5A5A5A5A5A5A5) =
      .next { State.reset with cells := one .base 0xA5A5A5A5A5A5A5A5#64, rsp := ⟨true, false, 0#64⟩ } := rfl

/-! ## The masking unit: vectors of 95_test_vectors.md section 3 -/

/-- VM-4 and VM-13: masks, Insert and Extract of an all-ones value. -/
theorem test_masking_unit_ones :
    fieldMask 8 8 = 0xFF00#64 ∧ insertField 0x0123456789ABCDEF#64 0 32 0xFFFFFFFF#32 = 0x01234567FFFFFFFF#64 ∧
      insertField 0x0123456789ABCDEF#64 8 8 0xFF#8 = 0x0123456789ABFFEF#64 ∧
      extractField 0x0123456789ABFFEF#64 8 8 = 0xFF#8 := by decide

/-- VM-5 and VM-14: zeros over ones, through the ports of R98. -/
theorem test_masking_unit_zeros :
    maskingUnit 0xFFFFFFFFFFFFFFFF#64 0#64 2#2 false = 0xFFFFFFFF00000000#64 ∧
      maskingUnit 0xFFFFFFFFFFFFFFFF#64 0#64 0#2 true = 0xFFFFFFFFFFFF00FF#64 := by decide

/-- VM-L5a, VM-L5b and VM-L7. -/
theorem test_masking_unit_sequences :
    insertField (insertField 0x0123456789ABCDEF#64 0 8 0x11#8) 8 8 0x22#8 = 0x0123456789AB2211#64 ∧
      insertField (insertField 0x0123456789ABCDEF#64 8 8 0x22#8) 0 8 0x11#8 = 0x0123456789AB2211#64 ∧
      insertField (insertField 0x0123456789ABCDEF#64 0 32 0xCAFEF00D#32) 8 8 0x99#8 = 0x01234567CAFE990D#64 := by decide

/-! ## Witnesses: each statement's hypotheses are met -/

/-- DecodeOfEncodeIsTheInstruction: a get and a set with the largest value. -/
theorem test_witness_DecodeOfEncodeIsTheInstruction :
    (Instr.get8DH).wellFormed = true ∧ (Instr.set8AH 0xFF#8).wellFormed = true ∧ (Instr.set64RDX 0xFFFFFFFFFFFFFFFF#64).wellFormed = true := by
  decide

/-- EncodeOfDecodeHoldsExactlyForCanonicalWords: a get and a set, each by a canonical and by a non-canonical word. -/
theorem test_witness_EncodeOfDecodeHoldsExactlyForCanonicalWords :
    decode 0x300000000000000000#71 = .ok .get64RAX ∧ decode 0x30DEADBEEFDEADBEEF#71 = .ok .get64RAX ∧ Instr.get64RAX.op = .get ∧
      decode 0x4000000000000000FF#71 = .ok (.set8AL 0xFF#8) ∧ decode 0x4000000000000001FF#71 = .ok (.set8AL 0xFF#8) ∧
      (Instr.set8AL 0xFF#8).op = .set := ⟨rfl, rfl, rfl, rfl, rfl, rfl⟩

/-- ReservedHeadersAreExactlyTheListedOnes: the first and the last reserved header, presented. -/
theorem test_witness_ReservedHeadersAreExactlyTheListedOnes :
    (at_ Cells.zero [.present 0x030000000000000000#71]).inputs = PortIn.present 0x030000000000000000#71 :: [] ∧
      (CmdWord.header 0x030000000000000000#71).toNat ∈ reservedList ∧ (CmdWord.header 0x7FFFFFFFFFFFFFFFFF#71).toNat ∈ reservedList := by
  decide

/-- SetValueIsTheLowDataBits: two words of set8(AL) that differ in bit 8 of the data only. -/
theorem test_witness_SetValueIsTheLowDataBits :
    decode 0x400000000000000012#71 = .ok (.set8AL 0x12#8) ∧ (Instr.set8AL 0x12#8).op = .set ∧
      CmdWord.header 0x400000000000000112#71 = CmdWord.header 0x400000000000000012#71 ∧
      ∀ j, j < (Instr.set8AL 0x12#8).view.width →
        (CmdWord.data 0x400000000000000112#71).getLsbD j = (CmdWord.data 0x400000000000000012#71).getLsbD j :=
  ⟨rfl, rfl, rfl, by decide⟩

/-- GetIgnoresTheDataField: two words of get64(RAX). -/
theorem test_witness_GetIgnoresTheDataField :
    decode 0x300000000000000000#71 = .ok .get64RAX ∧ Instr.get64RAX.op = .get ∧
      CmdWord.header 0x30DEADBEEFDEADBEEF#71 = CmdWord.header 0x300000000000000000#71 := ⟨rfl, rfl, rfl⟩

/-- HeaderFieldsSelectTheView: id[3] = 1 with wc = 0, id[3] = 0 with wc = 0, and wc = 3. -/
theorem test_witness_HeaderFieldsSelectTheView :
    decode 0x4F0000000000000000#71 = .ok (.set8DH 0#8) ∧ decode 0x070000000000000000#71 = .ok .get8DL ∧
      decode 0x770000000000000000#71 = .ok (.set64RDX 0#64) := ⟨rfl, rfl, rfl⟩

/-- InsertReplacesExactlyTheField, ExtractIsTheRightJustifiedField, ValueMaskOnlyDropsIgnoredBits: the widest field, one at each end of
the cell, and bits inside and outside one. -/
theorem test_witness_fields_within_the_cell :
    0 + 64 ≤ 64 ∧ 0 + 8 ≤ 64 ∧ 8 + 8 ≤ 64 ∧ 56 + 8 ≤ 64 ∧ ((8 : Nat) ≤ 8 ∧ 8 < 8 + 8) ∧ (15 < 8 + 8 ∧ ¬16 < 8 + 8) ∧ ¬(8 : Nat) ≤ 7 ∧ 63 < 64 := by
  decide

/-- FieldMaskHasOnesExactlyInTheField: fields that end at bit 63 and that start at bit 0, with bits 0 and 63. -/
theorem test_witness_FieldMaskHasOnesExactlyInTheField : 0 + 64 ≤ 64 ∧ 56 + 8 ≤ 64 ∧ 0 < 64 ∧ 63 < 64 := by decide

/-- MaskingUnitLaws: disjoint fields (L5), a field covered by another (L6), and the same pair for L7 with the first and last bit of the
covered field. -/
theorem test_witness_MaskingUnitLaws :
    0 + 8 ≤ 64 ∧ 8 + 8 ≤ 64 ∧ 0 + 16 ≤ 64 ∧ fieldMask 0 8 &&& fieldMask 8 8 = 0#64 ∧ fieldMask 8 8 &&& ~~~(fieldMask 0 16) = 0#64 ∧
      ((0 : Nat) ≤ 8 ∧ 8 + 8 ≤ 0 + 16 ∧ 8 < 16 ∧ 15 < 16) := by decide

/-- GetsNeverChangeState: a get, and a set of another cell. -/
theorem test_witness_GetsNeverChangeState :
    Instr.get8AH.op = .get ∧ (Instr.set64RBX 5#64).op = .set ∧ (Instr.set64RBX 5#64).view.cell ≠ Instr.get8AH.view.cell := by decide

/-- SetChangesNoBitOutsideItsView: a set, and another cell. -/
theorem test_witness_SetChangesNoBitOutsideItsView :
    (Instr.set8SPL 0xAB#8).op = .set ∧ Role.data ≠ (Instr.set8SPL 0xAB#8).view.cell := by decide

/-- HighAndLowBytesAreIndependent: the pair of each A-class cell is in its list. -/
theorem test_witness_HighAndLowBytesAreIndependent :
    (Id8.dh, Id8.dl) ∈ [(Id8.ah, Id8.al), (Id8.bh, Id8.bl), (Id8.ch, Id8.cl), (Id8.dh, Id8.dl)] := by decide

/-- SixteenBitGetIsHighByteThenLowByte: a pair of each of its lists. -/
theorem test_witness_SixteenBitGetIsHighByteThenLowByte :
    (Id16.dx, Id8.dh, Id8.dl) ∈ [(Id16.ax, Id8.ah, Id8.al), (Id16.bx, Id8.bh, Id8.bl), (Id16.cx, Id8.ch, Id8.cl), (Id16.dx, Id8.dh, Id8.dl)] ∧
      (Id16.si, Id8.sil) ∈ [(Id16.sp, Id8.spl), (Id16.bp, Id8.bpl), (Id16.di, Id8.dil), (Id16.si, Id8.sil)] := by decide

/-- GetSeesAnEarlierSetExactlyInTheOverlap: set8(AH) then get16(AX), at bits 7, 8 and 16 of the answer (before the overlap, in it, above
the width). -/
theorem test_witness_GetSeesAnEarlierSetExactlyInTheOverlap :
    (Instr.set8AH 0xFF#8).op = .set ∧ Instr.get16AX.op = .get ∧ (Instr.set8AH 0xFF#8).view.cell = Instr.get16AX.view.cell ∧
      (7 < Instr.get16AX.view.width ∧ ¬(Instr.set8AH 0xFF#8).view.off ≤ 7 + Instr.get16AX.view.off) ∧
      (8 < Instr.get16AX.view.width ∧ (Instr.set8AH 0xFF#8).view.off ≤ 8 + Instr.get16AX.view.off) ∧ ¬16 < Instr.get16AX.view.width := by decide

/-- CoveringSetHidesAnEarlierSet: set8(AH) then set16(AX), and a set after itself. -/
theorem test_witness_CoveringSetHidesAnEarlierSet :
    (Instr.set8AH 1#8).op = .set ∧ (Instr.set16AX 2#16).op = .set ∧ (Instr.set8AH 1#8).view.cell = (Instr.set16AX 2#16).view.cell ∧
      (Instr.set16AX 2#16).view.off ≤ (Instr.set8AH 1#8).view.off ∧
      (Instr.set8AH 1#8).view.off + (Instr.set8AH 1#8).view.width ≤ (Instr.set16AX 2#16).view.off + (Instr.set16AX 2#16).view.width := by decide

/-- SetsOfSeparateViewsCommute: two cells, and the two bytes of one cell in either order. -/
theorem test_witness_SetsOfSeparateViewsCommute :
    (Instr.set8AL 1#8).op = .set ∧ (Instr.set8AH 2#8).op = .set ∧ (Instr.set8BL 1#8).op = .set ∧
      (Instr.set8AL 1#8).view.cell ≠ (Instr.set8BL 1#8).view.cell ∧
      (Instr.set8AL 1#8).view.off + (Instr.set8AL 1#8).view.width ≤ (Instr.set8AH 2#8).view.off := by decide

/-- HardToReachBitsChangeOnlyByWideSets, first clause: set64(RSP) changes bits 63:32. -/
theorem test_witness_HardToReachBits_upper_half :
    step (at_ Cells.zero [.present 0x73FFFFFFFFFFFFFFFF#71]) =
        .next ⟨one .stackPointer 0xFFFFFFFFFFFFFFFF#64, [], ⟨true, false, 0#64⟩, []⟩ ∧
      ((one .stackPointer 0xFFFFFFFFFFFFFFFF#64).read .stackPointer).extractLsb' 32 32 ≠ (Cells.zero.read .stackPointer).extractLsb' 32 32 :=
  ⟨rfl, by decide⟩

/-- HardToReachBitsChangeOnlyByWideSets, second clause: set16(SP) changes bits 7:0. -/
theorem test_witness_HardToReachBits_low_byte :
    step (at_ Cells.zero [.present 0x530000000000001234#71]) = .next ⟨one .stackPointer 0x1234#64, [], ⟨true, false, 0#64⟩, []⟩ ∧
      Role.stackPointer.aClass = false ∧
      ((one .stackPointer 0x1234#64).read .stackPointer).extractLsb' 0 8 ≠ (Cells.zero.read .stackPointer).extractLsb' 0 8 :=
  ⟨rfl, rfl, by decide⟩

/-- StepRunsTheDecodedInstruction: a presented word, and a table word. -/
theorem test_witness_StepRunsTheDecodedInstruction :
    (at_ Cells.zero [.present 0x4800000000000000FF#71]).inputs = PortIn.present 0x4800000000000000FF#71 :: [] ∧
      decode 0x4800000000000000FF#71 = .ok (.set8AH 0xFF#8) ∧ (Instr.set8AH 0xFF#8).wellFormed = true ∧
      decodeTableWord 72 0x4800000000000000FF = some (.set8AH 0xFF#8) := ⟨rfl, rfl, rfl, rfl⟩

/-- IdleCycleChangesNothing: an idle cycle with a set's word on the port (VZ-4). -/
theorem test_witness_IdleCycleChangesNothing :
    (at_ (one .accumulator 1#64) [⟨false, false, 0x70FFFFFFFFFFFFFFFF#71⟩]).inputs = ⟨false, false, 0x70FFFFFFFFFFFFFFFF#71⟩ :: [] := rfl

/-- ResetCycleClearsEveryCell: one reset cycle with a command presented (VZ-2), and two in a row. -/
theorem test_witness_ResetCycleClearsEveryCell :
    (at_ (one .accumulator 1#64) [⟨true, true, 0x70FFFFFFFFFFFFFFFF#71⟩]).inputs = ⟨true, true, 0x70FFFFFFFFFFFFFFFF#71⟩ :: [] ∧
      (at_ (one .accumulator 1#64) [⟨true, false, 0#71⟩, ⟨true, true, 0#71⟩]).inputs ≠ [] ∧
      ∀ p ∈ (at_ (one .accumulator 1#64) [⟨true, false, 0#71⟩, ⟨true, true, 0#71⟩]).inputs, p.rst = true := ⟨rfl, by decide, by decide⟩

/-- ResponsesFollowTheTable: an input for each of the five rows. -/
theorem test_witness_ResponsesFollowTheTable :
    (at_ Cells.zero [PortIn.idle]).inputs = PortIn.idle :: [] ∧ (⟨true, true, 0#71⟩ : PortIn).rst = true ∧
      (PortIn.idle.rst = false ∧ PortIn.idle.cmdValid = false) ∧
      ((PortIn.present 0x030000000000000000#71).rst = false ∧ (PortIn.present 0x030000000000000000#71).cmdValid = true ∧
        (PortIn.present 0x030000000000000000#71).cmd.header.toNat ∈ reservedList) ∧
      (decode (PortIn.present 0x4000000000000000FF#71).cmd = .ok (.set8AL 0xFF#8) ∧ (Instr.set8AL 0xFF#8).op = .set) ∧
      (decode (PortIn.present 0x0F0000000000000000#71).cmd = .ok .get8DH ∧ Instr.get8DH.op = .get) :=
  ⟨rfl, rfl, ⟨rfl, rfl⟩, ⟨rfl, rfl, by decide⟩, ⟨rfl, rfl⟩, ⟨rfl, rfl⟩⟩

/-- IllegalCommandChangesNoCell: the words of VR-1 and VR-6. -/
theorem test_witness_IllegalCommandChangesNoCell :
    (CmdWord.header 0x4300000000000000FF#71).toNat ∈ reservedList ∧ (CmdWord.header 0x2F0000000000000000#71).toNat ∈ reservedList := by decide

/-- FaultIsRecordedExactlyForAPresentedReservedWord: a reserved word presented, and one under reset (VZ-3). -/
theorem test_witness_FaultIsRecorded :
    (at_ Cells.zero [.present 0x7F0000000000000000#71]).inputs = PortIn.present 0x7F0000000000000000#71 :: [] ∧
      (CmdWord.header 0x7F0000000000000000#71).toNat ∈ reservedList ∧ (⟨true, true, 0x7F0000000000000000#71⟩ : PortIn).rst = true := by decide

/-- FaultIsNotSticky: steps 2 and 3 of P5. -/
theorem test_witness_FaultIsNotSticky :
    (CmdWord.header 0x4300000000000000FF#71).toNat ∈ reservedList ∧ decode 0x320000000000000000#71 = .ok .get64RCX ∧
      (at_ (one .counter 0x0123456789ABCDEF#64) [.present 0x4300000000000000FF#71, .present 0x320000000000000000#71]).inputs =
        PortIn.present 0x4300000000000000FF#71 :: PortIn.present 0x320000000000000000#71 :: [] := ⟨by decide, rfl, rfl⟩

/-- RunOfEncodedCommandsIsTheTypedRun: scenario S1's two commands. -/
theorem test_witness_RunOfEncodedCommandsIsTheTypedRun :
    (at_ Cells.zero [.present 0x701122334455667788#71, .present 0x200000000000000000#71]).inputs =
      [Command.set64 .rax 0x1122334455667788#64, Command.get32 .eax].map (fun k => PortIn.present (encodeCommand k)) := by decide

/-- EveryBitIsItsLastWrite: the first and the last bit of a cell. -/
theorem test_witness_EveryBitIsItsLastWrite : 0 < 64 ∧ 63 < 64 := by decide

/-- InspectorGetIsInvisible: a presented get64(RCX). -/
theorem test_witness_InspectorGetIsInvisible : (PortIn.present 0x320000000000000000#71).isGet = true := by decide

/-- CellsNeverInfluenceOneAnother: two states that differ in the accumulator only, and the cell base. -/
theorem test_witness_CellsNeverInfluenceOneAnother :
    (at_ (one .accumulator 1#64) [.present 0x4100000000000000FF#71]).inputs = (at_ Cells.zero [.present 0x4100000000000000FF#71]).inputs ∧
      (one .accumulator 1#64).read .base = Cells.zero.read .base := ⟨rfl, rfl⟩

/-- RunRecordsExactlyTheReservedWords: no fault recorded, with safe inputs and with a reserved word to come. -/
theorem test_witness_RunRecordsExactlyTheReservedWords :
    (at_ Cells.zero [.present 0x320000000000000000#71]).faultFree = true ∧ (at_ Cells.zero [.present 0x320000000000000000#71]).safeInputs = true ∧
      (at_ Cells.zero [.present 0x380000000000000000#71]).faultFree = true ∧
      (at_ Cells.zero [.present 0x380000000000000000#71]).safeInputs = false := by decide

/-- StepKeepsTheInvariant: a state with the invariant whose step answers with an error. -/
theorem test_witness_StepKeepsTheInvariant :
    (at_ Cells.zero [.present 0x380000000000000000#71]).inv = true ∧
      step (at_ Cells.zero [.present 0x380000000000000000#71]) = .next ⟨Cells.zero, [], ⟨true, true, 0#64⟩, [.illegalCommand 0x38#7]⟩ :=
  ⟨rfl, rfl⟩

/-- AfterResetEveryGetReturnsZero: a get. -/
theorem test_witness_AfterResetEveryGetReturnsZero : Instr.get8SIL.op = .get ∧ Instr.get64RDX.op = .get := by decide

/-- AssemblingARenderedCommandGivesItBack: each separator, and a sequence with a set, a get, and a get with the largest value to compare. -/
theorem test_witness_AssemblingARenderedCommandGivesItBack :
    "; ".toList ∈ ["\n".toList, ";".toList, "; ".toList] ∧
      ∀ x ∈ [⟨.set8 .al 0xFF#8, none⟩, ⟨.get8 .ah, none⟩, (⟨.get8 .al, some 0xFF⟩ : Text.Item)], x.wellFormed = true := by decide

/-- TextIsRefusedExactlyWhenIllFormed: a raw command that has a typed one, with the largest value, and a piece of each form. -/
theorem test_witness_TextIsRefusedExactlyWhenIllFormed :
    Text.typed ⟨.set, .w8, .id8 .al, some 0xFF⟩ = .ok (.set8 .al 0xFF#8) ∧
      Text.parsePiece [.word "get8".toList, .lparen, .word "AL".toList, .rparen] = .ok ⟨.get8 .al, none⟩ ∧
      Text.parsePiece [.word "set8".toList, .lparen, .word "AL".toList, .comma, .word "0xFF".toList, .rparen] =
        .ok ⟨.set8 .al 0xFF#8, none⟩ ∧
      Text.parsePiece [.word "get8".toList, .lparen, .word "AL".toList, .rparen, .eqeq, .word "0xFF".toList] =
        .ok ⟨.get8 .al, some 0xFF⟩ := ⟨rfl, rfl, rfl, rfl⟩

end Sys2Proof.Tests
end

section
/-! PROOFS. The family `10_state.md`. First what the views of each class are (R22 to R26, R29), then what a set, a cycle and a run make of
each single bit of a cell (R93, R49), and last the statements O44, O31, O16 and O48 from these. -/

namespace Sys2Proof

/-! ## The views of the four classes (R22 to R26) -/

/-- The bits a view covers, as bounds. -/
theorem covers_iff (v : View) (j : Nat) : v.covers j = true ↔ v.off ≤ j ∧ j < v.off + v.width := by
  simp [View.covers]

@[simp] theorem Id64.view_off (id : Id64) : id.view.off = 0 := by cases id <;> rfl
@[simp] theorem Id64.view_width (id : Id64) : id.view.width = 64 := by cases id <;> rfl
@[simp] theorem Id32.view_off (id : Id32) : id.view.off = 0 := by cases id <;> rfl
@[simp] theorem Id32.view_width (id : Id32) : id.view.width = 32 := by cases id <;> rfl
@[simp] theorem Id16.view_off (id : Id16) : id.view.off = 0 := by cases id <;> rfl
@[simp] theorem Id16.view_width (id : Id16) : id.view.width = 16 := by cases id <;> rfl
@[simp] theorem Id8.view_width (id : Id8) : id.view.width = 8 := by cases id <;> rfl

/-- An 8-bit identifier is a high byte, or the low byte of an A-class cell (R25). -/
theorem Id8.view_off_cases (id : Id8) :
    id.view.off = 8 ∨ (id.view.off = 0 ∧ id.view.cell.aClass = true) := by
  cases id <;> decide

theorem Id64.exists_of_cell (c : Role) : ∃ id : Id64, id.view.cell = c := by
  cases c
  exacts [⟨.rax, rfl⟩, ⟨.rbx, rfl⟩, ⟨.rcx, rfl⟩, ⟨.rsp, rfl⟩, ⟨.rbp, rfl⟩, ⟨.rdi, rfl⟩, ⟨.rsi, rfl⟩, ⟨.rdx, rfl⟩]

theorem Id32.exists_of_cell (c : Role) : ∃ id : Id32, id.view.cell = c := by
  cases c
  exacts [⟨.eax, rfl⟩, ⟨.ebx, rfl⟩, ⟨.ecx, rfl⟩, ⟨.esp, rfl⟩, ⟨.ebp, rfl⟩, ⟨.edi, rfl⟩, ⟨.esi, rfl⟩, ⟨.edx, rfl⟩]

theorem Id16.exists_of_cell (c : Role) : ∃ id : Id16, id.view.cell = c := by
  cases c
  exacts [⟨.ax, rfl⟩, ⟨.bx, rfl⟩, ⟨.cx, rfl⟩, ⟨.sp, rfl⟩, ⟨.bp, rfl⟩, ⟨.di, rfl⟩, ⟨.si, rfl⟩, ⟨.dx, rfl⟩]

/-- Every cell has a high-byte identifier (R25). -/
theorem Id8.exists_highByte (c : Role) : ∃ id : Id8, id.view = ⟨c, 8, 8⟩ := by
  cases c
  exacts [⟨.ah, rfl⟩, ⟨.bh, rfl⟩, ⟨.ch, rfl⟩, ⟨.spl, rfl⟩, ⟨.bpl, rfl⟩, ⟨.dil, rfl⟩, ⟨.sil, rfl⟩, ⟨.dh, rfl⟩]

/-- Every A-class cell has a low-byte identifier (R25). -/
theorem Id8.exists_lowByte (c : Role) (h : c.aClass = true) : ∃ id : Id8, id.view = ⟨c, 0, 8⟩ := by
  cases c with
  | accumulator => exact ⟨.al, rfl⟩
  | base => exact ⟨.bl, rfl⟩
  | counter => exact ⟨.cl, rfl⟩
  | data => exact ⟨.dl, rfl⟩
  | stackPointer | stackBasePointer | destination | source => cases h

/-- A class whose views all begin at bit 0 reaches, in a cell it names, the bits below its width. -/
theorem class_reaches_iff {ι : Type} (view : ι → View) (w : Nat) (c : Role) (j : Nat)
    (hoff : ∀ id, (view id).off = 0) (hwidth : ∀ id, (view id).width = w) (hcell : ∃ id, (view id).cell = c) :
    (∃ id, (view id).cell = c ∧ (view id).covers j = true) ↔ j < w := by
  simp only [covers_iff, hoff, hwidth, Nat.zero_le, Nat.zero_add, true_and]
  exact ⟨fun ⟨_, _, hj⟩ => hj, fun hj => hcell.imp fun _ hc => ⟨hc, hj⟩⟩

/-- The 8-bit class reaches the high byte of every cell, and the low byte of an A-class cell (R25, R29). -/
theorem Id8.reaches_iff (c : Role) (j : Nat) :
    (∃ id : Id8, id.view.cell = c ∧ id.view.covers j = true) ↔ ((8 ≤ j ∧ j < 16) ∨ (j < 8 ∧ c.aClass = true)) := by
  constructor
  · rintro ⟨id, rfl, hj⟩
    rw [covers_iff, Id8.view_width] at hj
    rcases id.view_off_cases with hoff | ⟨hoff, hA⟩
    · left; omega
    · exact .inr ⟨by omega, hA⟩
  · rintro (⟨h8, h16⟩ | ⟨h8, hA⟩)
    · obtain ⟨id, hid⟩ := Id8.exists_highByte c
      exact ⟨id, by rw [hid], by rw [hid, covers_iff]; exact ⟨h8, h16⟩⟩
    · obtain ⟨id, hid⟩ := Id8.exists_lowByte c hA
      exact ⟨id, by rw [hid], by rw [hid, covers_iff]; exact ⟨Nat.zero_le j, by simpa using h8⟩⟩

/-- A command's view is as wide as its class (R19, R90). -/
theorem Command.view_width (k : Command) : k.view.width = k.raw.width.bits := by
  cases k <;> simp [Command.view, Command.raw, WidthClass.bits]

/-- Only a set of the 64-bit class covers a bit of the upper half of a cell (R29). -/
theorem Command.eq_set64_of_covers (k : Command) (j : Nat) (hop : k.op = .set) (hj : k.view.covers j = true) (h32 : 32 ≤ j) :
    ∃ (id : Id64) (v : Word), k = .set64 id v := by
  rw [covers_iff] at hj
  cases k with
  | get64 id | get32 id | get16 id | get8 id => cases hop
  | set64 id v => exact ⟨id, v, rfl⟩
  | set32 id v =>
    simp only [Command.view, Id32.view_off, Id32.view_width] at hj
    omega
  | set16 id v =>
    simp only [Command.view, Id16.view_off, Id16.view_width] at hj
    omega
  | set8 id v =>
    simp only [Command.view, Id8.view_width] at hj
    have := id.view_off_cases
    omega

/-- A view of an SP-class cell that covers a bit of the low byte is 16 bits wide or more (R25). -/
theorem Command.wide_of_covers_lowByte (k : Command) (j : Nat) (hA : k.view.cell.aClass = false)
    (hj : k.view.covers j = true) (h8 : j < 8) : 16 ≤ k.view.width := by
  rw [covers_iff] at hj
  cases k with
  | get64 id | get32 id | get16 id | set64 id v | set32 id v | set16 id v => simp [Command.view]
  | get8 id | set8 id v =>
    rcases id.view_off_cases with hoff | ⟨_, hlow⟩
    · simp only [Command.view, hoff] at hj
      omega
    · simp [Command.view, hlow] at hA

end Sys2Proof

namespace Sys2Proof.Machine

/-! ## Single bits of a cell after an insert, a command, a cycle and a run -/

/-- Insert replaces the bits of the field and keeps every other (R93). -/
theorem getLsbD_insertField (cell : Word) (off w : Nat) (v : BitVec w) (j : Nat) (hj : j < 64) :
    (insertField cell off w v).getLsbD j =
      if off ≤ j ∧ j < off + w then v.getLsbD (j - off) else cell.getLsbD j := by
  simp only [insertField, insertWord, fieldMask, BitVec.getLsbD_or, BitVec.getLsbD_and, BitVec.getLsbD_not,
    BitVec.getLsbD_shiftLeft, BitVec.getLsbD_setWidth, getLsbD_lowMask, hj]
  by_cases hoff : off ≤ j
  · have h64 : j - off < 64 := by omega
    have hw : j - off < w ↔ j < off + w := by omega
    by_cases hin : j < off + w <;> simp [hoff, hin, h64, hw, Nat.not_lt.2 hoff]
  · simp [hoff, Nat.not_le.1 hoff]

/-- A typed command changes only the bits that a set's view covers, to those of its value (R100, R110). -/
theorem getLsbD_applyTyped (k : Command) (x : Cells) (c : Role) (j : Nat) (hj : j < 64) :
    ((applyTyped k x).1.read c).getLsbD j =
      if k.op = .set ∧ k.view.cell = c ∧ k.view.covers j = true then k.data.getLsbD (j - k.view.off)
      else (x.read c).getLsbD j := by
  rcases applyTyped_cells k x with ⟨hop, hx⟩ | ⟨hop, hx, -⟩
  · simp [hx, hop]
  · rw [hx, Cells.writeView]
    by_cases hc : k.view.cell = c
    · subst hc
      rw [read_write_self, getLsbD_insertField _ _ _ _ _ hj]
      simp only [covers_iff, k.view_width]
      by_cases hin : k.view.off ≤ j ∧ j < k.view.off + k.raw.width.bits
      · have hw : j - k.view.off < k.raw.width.bits := by omega
        simp [hop, hin, hw]
      · simp [hin]
    · rw [read_write_other _ _ _ _ (Ne.symm hc)]
      simp [hc]

/-- Every step answers a next state and takes one input, and each bit after it is a function of this cycle's input and of that same
bit before it (R21, R49). -/
theorem step_bits (s : State) : ∃ t, step s = .next t ∧ t.inputs = s.inputs.tail ∧
    ∀ (c : Role) (j : Nat), j < 64 →
      (t.cells.read c).getLsbD j = bitAfterCycle c j ((s.cells.read c).getLsbD j) s.portIn := by
  rcases step_cases s with ⟨hr, h⟩ | ⟨hr, hv, h⟩ | ⟨hr, hv, i, hd, h⟩ | ⟨hr, hv, e, hd, h⟩
  · exact ⟨_, h, rfl, fun c j _ => by simp [bitAfterCycle, hr]⟩
  · exact ⟨_, h, rfl, fun c j _ => by simp [bitAfterCycle, hr, hv]⟩
  · refine ⟨_, h, rfl, fun c j hj => ?_⟩
    simp only [bitAfterCycle, hr, hv, hd, Bool.false_eq_true, if_false, if_true]
    exact getLsbD_applyTyped i.command s.cells c j hj
  · exact ⟨_, h, rfl, fun c j _ => by simp [bitAfterCycle, hr, hv, hd]⟩

/-- A run of the inputs makes of each bit what their history says (R49). -/
theorem runInputs_bits (s : State) : ∃ t, runInputs s = .next t ∧ t.inputs = [] ∧
    ∀ (c : Role) (j : Nat), j < 64 →
      (t.cells.read c).getLsbD j = bitHistory c j ((s.cells.read c).getLsbD j) s.inputs := by
  induction hs : s.inputs generalizing s with
  | nil => exact ⟨s, runInputs_nil s hs, hs, fun _ _ _ => rfl⟩
  | cons p ps ih =>
    obtain ⟨u, hstep, hin, hbits⟩ := step_bits s
    have hu : u.inputs = ps := by rw [hin, hs, List.tail_cons]
    obtain ⟨t, hrun, ht, hhist⟩ := ih u hu
    refine ⟨t, (runInputs_cons s u p ps hs hu hstep).trans hrun, ht, fun c j hj => ?_⟩
    rw [hhist c j hj, hbits c j hj, portIn_of_inputs s p ps hs]
    rfl

/-- Only a reset, or a set of the cell whose view covers the bit, changes a bit of a cell (R36, R110, R151). -/
theorem reset_or_set_of_bitAfterCycle_ne (c : Role) (j : Nat) (b : Bool) (p : PortIn) (h : bitAfterCycle c j b p ≠ b) :
    p.rst = true ∨ (p.cmdValid = true ∧ ∃ i : Instr, decode p.cmd = .ok i ∧ i.op = .set ∧ i.view.cell = c ∧
      i.view.covers j = true) := by
  unfold bitAfterCycle at h
  cases hr : p.rst with
  | true => exact .inl rfl
  | false =>
    cases hv : p.cmdValid with
    | false => simp [hr, hv] at h
    | true =>
      cases hd : decode p.cmd with
      | error e => simp [hr, hv, hd] at h
      | ok i =>
        by_cases hi : i.op = .set ∧ i.view.cell = c ∧ i.view.covers j = true
        · exact .inr ⟨rfl, i, rfl, hi⟩
        · simp [hr, hv, hd, hi] at h

/-- Slices that differ, differ in a bit of the slice. -/
theorem exists_bit_of_extractLsb'_ne (x y : Word) (off w : Nat) (h : x.extractLsb' off w ≠ y.extractLsb' off w) :
    ∃ j, off ≤ j ∧ j < off + w ∧ x.getLsbD j ≠ y.getLsbD j := by
  by_contra hall
  push Not at hall
  refine h (BitVec.eq_of_getLsbD_eq fun k hk => ?_)
  simp [hk, hall (off + k) (by omega) (by omega)]

/-- A step that changes a slice of a cell was a reset, or presented a set of the cell that covers a bit of the slice (R36). -/
theorem reset_or_set_of_step_slice_ne (s t : State) (c : Role) (off w : Nat) (hfit : off + w ≤ 64) (hstep : step s = .next t)
    (h : (t.cells.read c).extractLsb' off w ≠ (s.cells.read c).extractLsb' off w) :
    s.portIn.rst = true ∨ (s.portIn.cmdValid = true ∧ ∃ (i : Instr) (j : Nat), decode s.portIn.cmd = .ok i ∧ i.op = .set ∧
      i.view.cell = c ∧ i.view.covers j = true ∧ off ≤ j ∧ j < off + w) := by
  obtain ⟨j, hlo, hhi, hne⟩ := exists_bit_of_extractLsb'_ne _ _ off w h
  obtain ⟨u, hu, -, hbits⟩ := step_bits s
  obtain rfl : t = u := by simpa using hstep.symm.trans hu
  rw [hbits c j (by omega)] at hne
  exact (reset_or_set_of_bitAfterCycle_ne c j _ _ hne).imp_right fun ⟨hv, i, hd, hop, hc, hj⟩ =>
    ⟨hv, i, j, hd, hop, hc, hj, hlo, hhi⟩

/-! ## Gets -/

/-- A get answers its view, widened with zeros, and changes nothing but the response (R74, R100). -/
theorem perform_get (k : Command) (s : State) (h : k.op = .get) :
    perform k s = { s with rsp := ⟨true, false, (s.cells.readView k.view k.raw.width.bits).setWidth 64⟩ } := by
  cases k with
  | get64 id | get32 id | get16 id | get8 id => rfl
  | set64 id v | set32 id v | set16 id v | set8 id v => cases h

/-- Every view of the zero cells reads 0 (R37). -/
@[simp] theorem readView_zero (v : View) (w : Nat) : Cells.zero.readView v w = 0#w := by
  simp [Cells.readView, extractField]

/-! ## The statements -/

/-- Settles O44: the bits of a cell after a run are the history of the inputs applied to the bits of that cell alone. -/
theorem cellsNeverInfluenceOneAnother : Obligations.CellsNeverInfluenceOneAnother := by
  intro s s' c hin hread
  obtain ⟨t, hrun, -, hbits⟩ := runInputs_bits s
  obtain ⟨t', hrun', -, hbits'⟩ := runInputs_bits s'
  refine ⟨t, t', hrun, hrun', BitVec.eq_of_getLsbD_eq fun j hj => ?_⟩
  rw [hbits c j hj, hbits' c j hj, hin, hread]

/-- Settles O31: a changed slice has a changed bit, only a covering set or a reset changes a bit, and no view narrower than the
statement says covers the bit. -/
theorem hardToReachBitsChangeOnlyByWideSets : Obligations.HardToReachBitsChangeOnlyByWideSets := by
  intro s t c hstep
  refine ⟨fun hne => ?_, fun hA hne => ?_⟩
  · refine (reset_or_set_of_step_slice_ne s t c 32 32 (by decide) hstep hne).imp_right ?_
    rintro ⟨hv, i, j, hd, hop, hc, hj, h32, -⟩
    obtain ⟨id, v, hk⟩ := i.command.eq_set64_of_covers j hop hj h32
    refine ⟨hv, id, v, ?_, by rw [hd, ← hk, instr_command]⟩
    simpa [Instr.view, hk, Command.view] using hc
  · refine (reset_or_set_of_step_slice_ne s t c 0 8 (by decide) hstep hne).imp_right ?_
    rintro ⟨hv, i, j, hd, hop, hc, hj, -, h8⟩
    have hAi : i.command.view.cell.aClass = false := hc ▸ hA
    exact ⟨hv, i, hd, hop, hc, i.command.wide_of_covers_lowByte j hAi hj (by omega)⟩

/-- Settles O16, class by class. -/
theorem bitsEachClassReaches : Obligations.BitsEachClassReaches := by
  intro c j
  exact ⟨class_reaches_iff Id64.view 64 c j Id64.view_off Id64.view_width (Id64.exists_of_cell c),
    class_reaches_iff Id32.view 32 c j Id32.view_off Id32.view_width (Id32.exists_of_cell c),
    class_reaches_iff Id16.view 16 c j Id16.view_off Id16.view_width (Id16.exists_of_cell c),
    Id8.reaches_iff c j⟩

/-- Settles O48: a get answers its view of the cells, which is 0 where they are. -/
theorem afterResetEveryGetReturnsZero : Obligations.AfterResetEveryGetReturnsZero := by
  refine ⟨rfl, read_zero, fun i hop => ?_, fun i s hop => ?_⟩
  · rw [exec_eq_perform, perform_get _ _ hop, reset_cells, readView_zero]
    simp
  · rw [exec_eq_perform, perform_get _ _ hop]
    exact ⟨_, rfl, rfl, rfl⟩

end Sys2Proof.Machine
end

section
/-! PROOFS. The family `20_memory.md`. First separate views, what a get reads bit by bit, and what sets on separate views make of
the cells (R44, R49), then the statements O42, O27 and O29 from these. -/

namespace Sys2Proof

/-! ## Separate views -/

/-- Two views lie in different cells or in disjoint bit ranges (R49). -/
def View.Separate (u v : View) : Prop :=
  u.cell ≠ v.cell ∨ u.off + u.width ≤ v.off ∨ v.off + v.width ≤ u.off

/-- At most one of two separate views covers a bit of a cell. -/
theorem View.Separate.not_covers_both {u v : View} (h : u.Separate v) {c : Role} {j : Nat}
    (hu : u.cell = c ∧ u.covers j = true) : ¬ (v.cell = c ∧ v.covers j = true) := by
  rintro ⟨hvc, hvj⟩
  obtain ⟨huc, huj⟩ := hu
  rw [covers_iff] at huj hvj
  rcases h with hne | hrange
  · exact hne (huc.trans hvc.symm)
  · omega

end Sys2Proof

namespace Sys2Proof.Machine

/-! ## What a get reads -/

/-- Extract reads the bits of the field, and nothing above its width (R92). -/
theorem getLsbD_extractField (cell : Word) (off w j : Nat) :
    (extractField cell off w).getLsbD j = (decide (j < w) && cell.getLsbD (off + j)) := by
  simp only [extractField, BitVec.getLsbD_setWidth, BitVec.getLsbD_and, BitVec.getLsbD_ushiftRight, getLsbD_lowMask]
  by_cases h64 : j < 64
  · cases decide (j < w) <;> simp [h64]
  · have hout : cell.getLsbD (off + j) = false := BitVec.getLsbD_of_ge cell (off + j) (by omega)
    simp [hout]

/-- The answer of a get, widened with zeros, bit by bit (R44, R74). -/
theorem getLsbD_readView_setWidth (x : Cells) (v : View) (w j : Nat) (hw : w ≤ 64) :
    ((x.readView v w).setWidth 64).getLsbD j = if j < w then (x.read v.cell).getLsbD (j + v.off) else false := by
  rw [BitVec.getLsbD_setWidth, Cells.readView, getLsbD_extractField, Nat.add_comm v.off j]
  by_cases hj : j < w
  · have h64 : j < 64 := by omega
    simp [hj, h64]
  · simp [hj]

/-- The answer of a get instruction is its view at the view's own width (R74, R100). -/
theorem exec_get (i : Instr) (s : State) (h : i.op = .get) :
    exec i s = .next { s with rsp := ⟨true, false, (s.cells.readView i.view i.view.width).setWidth 64⟩ } := by
  rw [exec_eq_perform, perform_get i.command s h, Instr.view, i.command.view_width]

/-! ## What sets do to the cells -/

/-- Cells that agree in every bit are equal. -/
theorem cells_eq_of_bits (x y : Cells) (h : ∀ (c : Role) (j : Nat), j < 64 → (x.read c).getLsbD j = (y.read c).getLsbD j) :
    x = y :=
  cells_ext x y fun c => BitVec.eq_of_getLsbD_eq fun j hj => h c j hj

/-- Commands on separate views do the same to the cells in either order: no bit is written by both (R49). -/
theorem applyTyped_cells_comm (k l : Command) (x : Cells) (h : k.view.Separate l.view) :
    (applyTyped l (applyTyped k x).1).1 = (applyTyped k (applyTyped l x).1).1 := by
  refine cells_eq_of_bits _ _ fun c j hj => ?_
  simp only [getLsbD_applyTyped _ _ _ _ hj]
  by_cases hk : k.op = .set ∧ k.view.cell = c ∧ k.view.covers j = true
  · have hl : ¬ (l.op = .set ∧ l.view.cell = c ∧ l.view.covers j = true) := fun ⟨_, hl⟩ =>
      h.not_covers_both hk.2 hl
    rw [if_pos hk, if_neg hl, if_pos hk]
  · rw [if_neg hk, if_neg hk]

/-- A set changes the cells and answers that it is done (R74, R110). -/
theorem perform_set (k : Command) (s : State) (h : k.op = .set) :
    perform k s = { s with cells := (applyTyped k s.cells).1, rsp := Response.done } := by
  cases k with
  | get64 id | get32 id | get16 id | get8 id => cases h
  | set64 id v | set32 id v | set16 id v | set8 id v => rfl

/-- A set's own cell bit by bit: the value where the view covers the bit, else the bit it was (R93, R110). -/
theorem getLsbD_perform_set (i : Instr) (s : State) (j : Nat) (hop : i.op = .set) (hj : j < 64) :
    ((perform i.command s).cells.read i.view.cell).getLsbD j =
      if i.view.off ≤ j ∧ j < i.view.off + i.view.width then i.value.getLsbD (j - i.view.off)
      else (s.cells.read i.view.cell).getLsbD j := by
  have hcond : (i.command.op = .set ∧ i.command.view.cell = i.view.cell ∧ i.command.view.covers j = true) ↔
      (i.view.off ≤ j ∧ j < i.view.off + i.view.width) :=
    ⟨fun ⟨_, _, hcov⟩ => (covers_iff i.view j).1 hcov, fun hin => ⟨hop, rfl, (covers_iff i.view j).2 hin⟩⟩
  rw [perform_cells, getLsbD_applyTyped _ _ _ _ hj]
  exact if_congr hcond rfl rfl

/-- Sets on separate views end in one state in either order (R49). -/
theorem perform_comm_of_set (k l : Command) (s : State) (hk : k.op = .set) (hl : l.op = .set)
    (h : k.view.Separate l.view) :
    perform l (perform k s) = perform k (perform l s) := by
  rw [perform_set k s hk, perform_set l _ hl, perform_set l s hl, perform_set k _ hk, applyTyped_cells_comm k l s.cells h]

/-! ## The statements -/

/-- Settles O42: the induction over the inputs of `runInputs_bits`, each step by `step_bits`. -/
theorem everyBitIsItsLastWrite : Obligations.EveryBitIsItsLastWrite :=
  runInputs_bits

/-- Settles O27: the get reads bit `j + b.off` of the cell, and the set has put its value there exactly where its view covers that bit. -/
theorem getSeesAnEarlierSetExactlyInTheOverlap : Obligations.GetSeesAnEarlierSetExactlyInTheOverlap := by
  intro a b s ha hb hcell
  refine ⟨_, _, exec_eq_perform a s, exec_get b _ hb, fun j => ?_⟩
  obtain ⟨-, hfits⟩ := view_fits b
  rw [getLsbD_readView_setWidth _ _ _ _ (by omega)]
  by_cases hj : j < b.view.width
  · rw [if_pos hj, if_pos hj, ← hcell]
    exact getLsbD_perform_set a s (j + b.view.off) ha (by omega)
  · rw [if_neg hj, if_neg hj]

/-- Settles O29: no bit is written by both sets, so their order decides none. -/
theorem setsOfSeparateViewsCommute : Obligations.SetsOfSeparateViewsCommute := by
  intro a b s ha hb hsep
  refine ⟨_, _, _, exec_eq_perform a s, exec_eq_perform b _, exec_eq_perform b s, ?_⟩
  rw [exec_eq_perform, perform_comm_of_set a.command b.command s ha hb hsep]

end Sys2Proof.Machine
end

section
/-! PROOFS. The family `30_encoding.md`, first part: the command word. A header is its three fields (R63), and a word decodes to a
command exactly when it has the command's header and the command's value in the bits the command reads (R68 to R70). From this the
statements about words (O9, O10, O12, O13, O14, O11), one cycle (O33, O46, O35), the wired block (O40) and runs (O41). -/

namespace Sys2Proof

/-! ## The three fields of a header (R63 to R67) -/

@[simp] theorem Header.op_make (o : Op) (w : WidthClass) (c : BitVec 4) : (Header.make o w c).op = o.code := by
  cases o <;> cases w <;> revert c <;> decide

@[simp] theorem Header.wc_make (o : Op) (w : WidthClass) (c : BitVec 4) : (Header.make o w c).wc = w.code := by
  cases o <;> cases w <;> revert c <;> decide

@[simp] theorem Header.id_make (o : Op) (w : WidthClass) (c : BitVec 4) : (Header.make o w c).id = c := by
  cases o <;> cases w <;> revert c <;> decide

/-- A header is made of its three fields. -/
theorem Header.make_fields (h : Header) : Header.make (Op.ofCode h.op) (WidthClass.ofCode h.wc) h.id = h := by
  revert h
  decide

/-! ## Identifiers of any class -/

/-- `id` of an identifier within its class (R66, R67). -/
def AnyId.code : AnyId → BitVec 4
  | .id64 i => i.code
  | .id32 i => i.code
  | .id16 i => i.code
  | .id8 i => i.code

/-- The view of an identifier of any class (R22 to R25). -/
def AnyId.view : AnyId → View
  | .id64 i => i.view
  | .id32 i => i.view
  | .id16 i => i.view
  | .id8 i => i.view

/-- The identifier of a class that a code names (R66, R67). -/
def AnyId.ofCode : WidthClass → BitVec 4 → Option AnyId
  | .w64, c => (Id64.ofCode c).map .id64
  | .w32, c => (Id32.ofCode c).map .id32
  | .w16, c => (Id16.ofCode c).map .id16
  | .w8, c => (Id8.ofCode c).map .id8

/-- The code of an identifier names it in its class. -/
@[simp] theorem AnyId.ofCode_code (i : AnyId) : AnyId.ofCode i.widthClass i.code = some i := by
  cases i <;> simp [AnyId.ofCode, AnyId.widthClass, AnyId.code]

/-- A code names, in a class, only the identifier of that class with that code. -/
theorem AnyId.code_of_ofCode : ∀ (w : WidthClass) (c : BitVec 4) (i : AnyId), AnyId.ofCode w c = some i →
    i.widthClass = w ∧ i.code = c := by
  have key : ∀ (w : WidthClass) (c : BitVec 4), ∀ i ∈ AnyId.ofCode w c, i.widthClass = w ∧ i.code = c := by
    intro w
    cases w <;> decide
  exact key

/-- The reserved headers are those whose `id` names nothing in the class of their `wc` (R72). -/
theorem Header.reserved_iff (h : Header) :
    h.reserved = true ↔ AnyId.ofCode (WidthClass.ofCode h.wc) h.id = none := by
  revert h
  decide

/-! ## Commands by their parts -/

/-- The command of an operation and an identifier, a set with the low bits of `d` as its value (R60, R68). -/
def Command.ofParts : Op → AnyId → Word → Command
  | .get, .id64 i, _ => .get64 i
  | .get, .id32 i, _ => .get32 i
  | .get, .id16 i, _ => .get16 i
  | .get, .id8 i, _ => .get8 i
  | .set, .id64 i, d => .set64 i d
  | .set, .id32 i, d => .set32 i (d.setWidth 32)
  | .set, .id16 i, d => .set16 i (d.setWidth 16)
  | .set, .id8 i, d => .set8 i (d.setWidth 8)

@[simp] theorem Command.op_ofParts (o : Op) (i : AnyId) (d : Word) : (Command.ofParts o i d).op = o := by
  cases o <;> cases i <;> rfl

@[simp] theorem Command.ident_ofParts (o : Op) (i : AnyId) (d : Word) : (Command.ofParts o i d).raw.ident = i := by
  cases o <;> cases i <;> rfl

/-- The typed operations take identifiers of their own class only (R27). -/
theorem Command.width_eq (k : Command) : k.raw.width = k.raw.ident.widthClass := by cases k <;> rfl

theorem Command.view_eq (k : Command) : k.view = k.raw.ident.view := by cases k <;> rfl

/-- The header of a command from its operation, class and identifier (R64 to R67). -/
theorem Command.header_eq (k : Command) : k.header = Header.make k.op k.raw.width k.raw.ident.code := by
  cases k <;> rfl

/-- What a command reads of a data field: the low `W` bits for a set, nothing for a get (R68, R69). -/
def Command.operand (k : Command) (d : Word) : Word :=
  match k.op with
  | .get => 0#64
  | .set => (d.setWidth k.raw.width.bits).setWidth 64

theorem Command.operand_get (k : Command) (d : Word) (h : k.op = .get) : k.operand d = 0#64 := by
  simp only [Command.operand, h]

theorem Command.operand_set (k : Command) (d : Word) (h : k.op = .set) :
    k.operand d = (d.setWidth k.raw.width.bits).setWidth 64 := by
  simp only [Command.operand, h]

/-- The canonical data field of a command is read back whole (R71). -/
@[simp] theorem Command.operand_data (k : Command) : k.operand k.data = k.data := by
  cases k with
  | get64 id | get32 id | get16 id | get8 id => rfl
  | set64 id v | set32 id v | set16 id v | set8 id v =>
    simp [Command.operand, Command.op, Command.raw, Command.data, WidthClass.bits]

/-- Widening to a data field loses nothing. -/
theorem widen_inj {w : Nat} (hw : w ≤ 64) (u v : BitVec w) : u.setWidth 64 = v.setWidth 64 ↔ u = v := by
  refine ⟨fun h => ?_, fun h => by rw [h]⟩
  simpa [BitVec.setWidth_setWidth_of_le, hw] using congrArg (BitVec.setWidth w) h

/-- A command is made of its parts exactly by the data fields that hold its value in the bits it reads. -/
theorem Command.ofParts_eq_self_iff (k : Command) (d : Word) :
    Command.ofParts k.op k.raw.ident d = k ↔ k.data = k.operand d := by
  cases k with
  | get64 id | get32 id | get16 id | get8 id => exact iff_of_true rfl rfl
  | set64 id v | set32 id v | set16 id v | set8 id v =>
    simp [Command.ofParts, Command.op, Command.raw, Command.data, Command.operand, WidthClass.bits, widen_inj, eq_comm]

/-! ## What decodes to what -/

/-- A word whose `id` names an identifier in the class of its `wc` decodes to the command of its parts (R70). -/
theorem decodeCommand_of_id (cw : CmdWord) (i : AnyId)
    (h : AnyId.ofCode (WidthClass.ofCode cw.header.wc) cw.header.id = some i) :
    decodeCommand cw = .ok (Command.ofParts (Op.ofCode cw.header.op) i cw.data) := by
  unfold decodeCommand
  cases hw : WidthClass.ofCode cw.header.wc <;> rw [hw] at h <;> obtain ⟨j, hj, rfl⟩ := Option.map_eq_some_iff.1 h <;>
    cases Op.ofCode cw.header.op <;> simp only [hj, Command.ofParts]

/-- A word whose `id` names nothing in the class of its `wc` is refused (R72). -/
theorem decodeCommand_of_no_id (cw : CmdWord)
    (h : AnyId.ofCode (WidthClass.ofCode cw.header.wc) cw.header.id = none) : ∃ e, decodeCommand cw = .error e := by
  unfold decodeCommand
  cases hw : WidthClass.ofCode cw.header.wc <;> rw [hw] at h <;> simp [Option.map_eq_none_iff.1 h]

/-- A word decodes to exactly the command with its header that reads its own value in the word's data field (R70). -/
theorem decodeCommand_eq_ok_iff (cw : CmdWord) (k : Command) :
    decodeCommand cw = .ok k ↔ k.header = cw.header ∧ k.data = k.operand cw.data := by
  constructor
  · intro h
    cases hid : AnyId.ofCode (WidthClass.ofCode cw.header.wc) cw.header.id with
    | none =>
      obtain ⟨e, he⟩ := decodeCommand_of_no_id cw hid
      exact absurd (h.symm.trans he) nofun
    | some i =>
      obtain rfl : Command.ofParts (Op.ofCode cw.header.op) i cw.data = k := by
        simpa [decodeCommand_of_id cw i hid] using h
      obtain ⟨hclass, hcode⟩ := AnyId.code_of_ofCode _ _ _ hid
      constructor
      · rw [Command.header_eq, Command.width_eq, Command.op_ofParts, Command.ident_ofParts, hclass, hcode]
        exact Header.make_fields cw.header
      · rw [← Command.ofParts_eq_self_iff, Command.op_ofParts, Command.ident_ofParts]
  · rintro ⟨hheader, hdata⟩
    have hparts := k.header_eq.symm.trans hheader
    have hid : AnyId.ofCode (WidthClass.ofCode cw.header.wc) cw.header.id = some k.raw.ident := by
      rw [← hparts, Header.wc_make, Header.id_make, WidthClass.ofCode_code, k.width_eq, AnyId.ofCode_code]
    have hop : Op.ofCode cw.header.op = k.op := by rw [← hparts, Header.op_make, Op.ofCode_code]
    rw [decodeCommand_of_id cw _ hid, hop, (k.ofParts_eq_self_iff cw.data).2 hdata]

/-- The same of instructions: the table's rows and the typed commands correspond (R73). -/
theorem decode_eq_ok_iff (cw : CmdWord) (i : Instr) :
    decode cw = .ok i ↔ i.command.header = cw.header ∧ i.value = i.command.operand cw.data := by
  rw [show i.value = i.command.data from rfl, ← decodeCommand_eq_ok_iff, decode]
  cases decodeCommand cw with
  | error e => exact iff_of_false nofun nofun
  | ok k =>
    refine ⟨fun h => ?_, fun h => ?_⟩
    · cases h
      rw [command_instr]
    · cases h
      exact congrArg Except.ok (instr_command i)

/-- The decoder refuses exactly the reserved headers (R72). -/
theorem exists_decode_error_iff (cw : CmdWord) : (∃ e, decode cw = .error e) ↔ cw.header.reserved = true := by
  rw [Header.reserved_iff, decode]
  cases hid : AnyId.ofCode (WidthClass.ofCode cw.header.wc) cw.header.id with
  | none =>
    obtain ⟨e, he⟩ := decodeCommand_of_no_id cw hid
    exact iff_of_true ⟨e, by rw [he]⟩ rfl
  | some i => exact iff_of_false (by simp [decodeCommand_of_id cw i hid]) nofun

/-- The header of a word that decodes is not reserved. -/
theorem reserved_of_decode_ok {cw : CmdWord} {i : Instr} (h : decode cw = .ok i) : cw.header.reserved = false := by
  rw [← Bool.not_eq_true, ← exists_decode_error_iff, h]
  exact nofun

/-- Decoding undoes encoding (R71). -/
@[simp] theorem decode_encodeCommand (k : Command) : decode (encodeCommand k) = .ok k.instr := by
  simp [decode_eq_ok_iff, encodeCommand, Instr.value]

/-- Every header the list of R72 holds is reserved, and no other. -/
theorem mem_reservedList_iff (h : Header) : h.toNat ∈ Claims.reservedList ↔ h.reserved = true := by
  revert h
  decide

/-! ## The bits a command reads -/

/-- A set reads the data bits below its width, and a get none (R68, R69). -/
theorem Command.getLsbD_operand (k : Command) (d : Word) (j : Nat) :
    (k.operand d).getLsbD j = (decide (k.op = .set) && (decide (j < k.view.width) && d.getLsbD j)) := by
  cases hop : k.op with
  | get => simp [k.operand_get d hop]
  | set =>
    rw [k.operand_set d hop, k.view_width]
    by_cases h64 : j < 64
    · simp [h64]
    · simp [h64, BitVec.getLsbD_of_ge d j (by omega)]

/-- A set's operand has the low bits of the data field (R68). -/
theorem Command.setWidth_operand (k : Command) (d : Word) (h : k.op = .set) :
    (k.operand d).setWidth k.raw.width.bits = d.setWidth k.raw.width.bits := by
  have hbits : k.raw.width.bits ≤ 64 := by cases k.raw.width <;> decide
  rw [k.operand_set d h, BitVec.setWidth_setWidth_of_le _ hbits, BitVec.setWidth_eq]

/-- Data fields that agree below the width are read alike. -/
theorem Command.operand_congr (k : Command) (d d' : Word)
    (h : k.op = .set → ∀ j, j < k.view.width → d'.getLsbD j = d.getLsbD j) : k.operand d' = k.operand d := by
  refine BitVec.eq_of_getLsbD_eq fun j _ => ?_
  rw [k.getLsbD_operand, k.getLsbD_operand]
  by_cases hop : k.op = .set
  · by_cases hj : j < k.view.width
    · rw [h hop j hj]
    · simp [hj]
  · simp [hop]

/-- A command reads the whole data field exactly if the bits it ignores are zero (R68, R69). -/
theorem Command.operand_eq_self_iff (k : Command) (d : Word) :
    k.operand d = d ↔ (k.op = .get → d = 0#64) ∧ (k.op = .set → d >>> k.view.width = 0#64) := by
  cases hop : k.op with
  | get => simpa [k.operand_get d hop] using eq_comm
  | set =>
    have hbits : k.operand d = d ↔ ∀ j, k.view.width ≤ j → d.getLsbD j = false := by
      constructor
      · intro h j hj
        rw [← h, k.getLsbD_operand]
        simp [Nat.not_lt.2 hj]
      · intro h
        refine BitVec.eq_of_getLsbD_eq fun j _ => ?_
        rw [k.getLsbD_operand, hop]
        by_cases hj : j < k.view.width
        · simp [hj]
        · simp [hj, h j (Nat.not_lt.1 hj)]
    have hshift : d >>> k.view.width = 0#64 ↔ ∀ j, k.view.width ≤ j → d.getLsbD j = false := by
      constructor
      · intro h j hj
        simpa [Nat.add_sub_cancel' hj] using congrArg (BitVec.getLsbD · (j - k.view.width)) h
      · intro h
        refine BitVec.eq_of_getLsbD_eq fun j _ => ?_
        simp [h (k.view.width + j) (Nat.le_add_right _ _)]
    simp [hbits, hshift]

/-! ## The header fields as selects (R70, R98) -/

theorem AnyId.cellIndex_code (i : AnyId) : i.code.extractLsb' 0 3 = i.view.cell.index := by
  cases i <;> rename_i i <;> cases i <;> rfl

theorem AnyId.view_off (i : AnyId) :
    i.view.off = if i.code.getLsbD 3 = true ∧ i.widthClass.code = 0#2 then 8 else 0 := by
  cases i <;> rename_i i <;> cases i <;> rfl

theorem WidthClass.bits_eq (w : WidthClass) : w.bits = 8 * 2 ^ w.code.toNat := by cases w <;> rfl

theorem Op.code_eq_one_iff (o : Op) : o.code = 1#1 ↔ o = .set := by cases o <;> decide

/-- The fields of a command's header select its kind and its view. -/
theorem Command.header_selects (k : Command) :
    (k.op = .set ↔ k.header.op = 1#1) ∧ k.header.id.extractLsb' 0 3 = k.view.cell.index ∧
    k.view.off = (if k.header.id.getLsbD 3 = true ∧ k.header.wc = 0#2 then 8 else 0) ∧
    k.view.width = 8 * 2 ^ k.header.wc.toNat := by
  rw [k.header_eq, Header.op_make, Header.id_make, Header.wc_make, k.view_eq]
  refine ⟨k.op.code_eq_one_iff.symm, k.raw.ident.cellIndex_code, ?_, ?_⟩
  · rw [k.width_eq, AnyId.view_off]
  · rw [← k.view_eq, k.view_width, WidthClass.bits_eq]

end Sys2Proof

namespace Sys2Proof.Machine

open Claims

/-! ## The statements about words -/

/-- Settles O9. -/
theorem decodeOfEncodeIsTheInstruction : Obligations.DecodeOfEncodeIsTheInstruction := by
  intro i _
  rw [encode, decode_encodeCommand, instr_command]

/-- Settles O10: the header is the word's already, so the two words agree exactly if the data field is all read. -/
theorem encodeOfDecodeHoldsExactlyForCanonicalWords : Obligations.EncodeOfDecodeHoldsExactlyForCanonicalWords := by
  intro cw i hdec
  obtain ⟨hheader, hvalue⟩ := (decode_eq_ok_iff cw i).1 hdec
  have hword : encode i = cw ↔ i.command.operand cw.data = cw.data := by
    rw [← hvalue, encode, encodeCommand, hheader]
    constructor
    · intro h
      rw [← congrArg CmdWord.data h, data_make]
      rfl
    · intro h
      rw [show i.command.data = cw.data from h, make_header_data]
  exact hword.trans (i.command.operand_eq_self_iff cw.data)

/-- A word with the header of one that decodes, and the data bits that its instruction reads, decodes to the same instruction. -/
theorem decode_of_same_operand {cw cw' : CmdWord} {i : Instr} (h : decode cw = .ok i) (hheader : cw'.header = cw.header)
    (hdata : i.op = .set → ∀ j, j < i.view.width → cw'.data.getLsbD j = cw.data.getLsbD j) : decode cw' = .ok i := by
  obtain ⟨hh, hv⟩ := (decode_eq_ok_iff cw i).1 h
  rw [decode_eq_ok_iff, hheader, hv]
  exact ⟨hh, (i.command.operand_congr cw.data cw'.data hdata).symm⟩

/-- A presented word that decodes has its command performed (R131). -/
theorem step_of_legal {s : State} {cw : CmdWord} {rest : List PortIn} {i : Instr} (hin : s.inputs = PortIn.present cw :: rest)
    (hdec : decode cw = .ok i) : step s = .next (perform i.command s.afterPortIn) := by
  rw [← exec_eq_perform]
  simp [step, cycle, stepBinary, portIn_of_inputs s _ rest hin, PortIn.present, hdec]

/-- A presented reserved header is answered with the error and changes no cell (R131). -/
theorem step_of_reserved {s : State} {cw : CmdWord} {rest : List PortIn} (hin : s.inputs = PortIn.present cw :: rest)
    (hres : cw.header.reserved = true) : step s = .next (takeIllegalCommand cw.header s.afterPortIn) := by
  obtain ⟨e, he⟩ := (exists_decode_error_iff cw).2 hres
  simp [step, cycle, stepBinary, portIn_of_inputs s _ rest hin, PortIn.present, he]

/-- The same of a word placed before all other inputs. -/
theorem step_presentNext {cw : CmdWord} {i : Instr} (hdec : decode cw = .ok i) (s : State) :
    step (s.presentNext cw) = .next (perform i.command s) :=
  step_of_legal (presentNext_inputs s cw) hdec

/-- Settles O12. -/
theorem setValueIsTheLowDataBits : Obligations.SetValueIsTheLowDataBits := by
  intro cw i hdec hop
  refine ⟨fun j => ?_, fun cw' hheader hdata => ?_⟩
  · rw [((decode_eq_ok_iff cw i).1 hdec).2, Command.getLsbD_operand, show i.command.op = .set from hop]
    rfl
  · have hdec' := decode_of_same_operand hdec hheader fun _ => hdata
    exact ⟨hdec', fun s => by rw [step_presentNext hdec', step_presentNext hdec]⟩

/-- Settles O13. -/
theorem getIgnoresTheDataField : Obligations.GetIgnoresTheDataField := by
  intro cw cw' i hdec hop hheader
  have hdec' := decode_of_same_operand hdec hheader fun hset => absurd (hop.symm.trans hset) nofun
  refine ⟨hdec', fun s => ⟨_, step_presentNext hdec s, step_presentNext hdec' s, ?_⟩⟩
  rw [perform_get _ _ hop]

/-- `id[2:0]` as a number. -/
theorem toNat_lowThreeBits (c : BitVec 4) : (c.extractLsb' 0 3).toNat = c.toNat % 8 := by
  simp [BitVec.extractLsb'_toNat]

/-- Settles O14. -/
theorem headerFieldsSelectTheView : Obligations.HeaderFieldsSelectTheView := by
  intro cw i hdec
  obtain ⟨hop, hcell, hoff, hwidth⟩ := i.command.header_selects
  rw [((decode_eq_ok_iff cw i).1 hdec).1] at hop hcell hoff hwidth
  exact ⟨hop, by rw [← toNat_lowThreeBits, hcell]; rfl, hoff, hwidth⟩

/-- Settles O11. -/
theorem reservedHeadersAreExactlyTheListedOnes : Obligations.ReservedHeadersAreExactlyTheListedOnes := by
  refine ⟨rfl, by decide, by decide, fun cw => ?_, fun cw s rest hin hmem => ?_⟩
  · rw [mem_reservedList_iff, exists_decode_error_iff]
  · exact ⟨_, step_of_reserved hin ((mem_reservedList_iff cw.header).1 hmem), rfl, rfl⟩

/-! ## One cycle -/

/-- Settles O33. -/
theorem idleCycleChangesNothing : Obligations.IdleCycleChangesNothing := by
  intro s cw rest hin
  simp [step, cycle, portIn_of_inputs s _ rest hin, idleCycle, State.afterPortIn, hin, Response.none]

/-- A state whose last response is no error has the invariant, if that response has a shape of R74. -/
theorem inv_of_no_error (s : State) (v : Bool) (d : Word) (h : s.rsp = ⟨v, false, d⟩) (hd : v = true ∨ d = 0#64) :
    s.inv = true := by
  rcases hd with rfl | rfl <;> simp [State.inv, Response.wellFormed, h]

/-- Settles O46: only `IllegalCommand` is answered with an error, and it is put on record. -/
theorem stepKeepsTheInvariant : Obligations.StepKeepsTheInvariant := by
  intro s t _ hstep
  rcases step_cases s with ⟨-, h⟩ | ⟨-, -, h⟩ | ⟨-, -, i, -, h⟩ | ⟨-, -, e, -, h⟩ <;>
    obtain rfl := Host.Outcome.next.inj (hstep.symm.trans h)
  · exact inv_of_no_error _ _ _ rfl (.inr rfl)
  · exact inv_of_no_error _ _ _ rfl (.inr rfl)
  · cases hop : i.command.op with
    | get => exact inv_of_no_error _ _ _ (congrArg State.rsp (perform_get _ _ hop)) (.inl rfl)
    | set => exact inv_of_no_error _ _ _ (congrArg State.rsp (perform_set _ _ hop)) (.inl rfl)
  · simp [State.inv, Response.wellFormed]

/-- Settles O35. -/
theorem responsesFollowTheTable : Obligations.ResponsesFollowTheTable := by
  intro s p rest hin
  obtain rfl : s.portIn = p := portIn_of_inputs s p rest hin
  obtain ⟨t, hstep, -⟩ := step_bits s
  refine ⟨t, hstep, ?_⟩
  rcases step_cases s with ⟨hr, h⟩ | ⟨hr, hv, h⟩ | ⟨hr, hv, i, hd, h⟩ | ⟨hr, hv, e, hd, h⟩ <;>
    obtain rfl := Host.Outcome.next.inj (hstep.symm.trans h)
  · simp [hr]
  · simp [hr, hv]
  · have hlegal : s.portIn.cmd.header.toNat ∉ reservedList := by
      rw [mem_reservedList_iff, reserved_of_decode_ok hd]
      nofun
    refine ⟨by simp [hr], by simp [hv], by simp [hlegal], fun i' _ _ hd' => ?_⟩
    obtain rfl : i = i' := Except.ok.inj (hd.symm.trans hd')
    refine ⟨fun hop => by rw [perform_set _ _ hop]; rfl, fun hop => ?_⟩
    rw [Host.Outcome.next.inj ((exec_eq_perform i _).symm.trans (exec_get i _ hop))]
    refine ⟨rfl, rfl, fun j => ?_⟩
    have hfits := (view_fits i).2
    rw [getLsbD_readView_setWidth _ _ _ _ (by omega)]
    by_cases hj : j < i.view.width <;> simp [hj]
  · simp [hr, hv, hd]

/-! ## The wired description (R62, R70, R98) -/

/-- A set writes its value, at the width of its class, into its view (R110). -/
theorem applyTyped_set_cells (k : Command) (x : Cells) (h : k.op = .set) :
    (applyTyped k x).1 = x.writeView k.view k.raw.width.bits (k.data.setWidth k.raw.width.bits) := by
  rcases applyTyped_cells k x with ⟨hop, -⟩ | ⟨-, hx, -⟩
  · exact absurd (hop.symm.trans h) nofun
  · exact hx

namespace Datapath

theorem cell_header (k : Command) : Role.ofIndex (cellIndex k.header) = k.view.cell := by
  obtain ⟨-, hcell, -, -⟩ := k.header_selects
  rw [cellIndex, hcell, ofIndex_index]

theorem selected_header (k : Command) (x : Cells) : selected k.header x = x.read k.view.cell := by
  rw [selected, cell_header]

theorem offsetOfSelect_header (k : Command) : offsetOfSelect (byteSelect k.header) = k.view.off := by
  obtain ⟨-, -, hoff, -⟩ := k.header_selects
  simp [hoff, offsetOfSelect, byteSelect]

theorem widthOfCode_header (k : Command) : widthOfCode k.header.wc = k.view.width := by
  obtain ⟨-, -, -, hwidth⟩ := k.header_selects
  rw [hwidth, widthOfCode, Nat.shiftLeft_eq]

theorem isSet_header (k : Command) : isSet k.header = decide (k.op = .set) := by
  obtain ⟨hop, -⟩ := k.header_selects
  simp [isSet, hop]

/-- The read path carries what the get answers (R74, R100). -/
theorem readBus_header (k : Command) (x : Cells) :
    readBus k.header x = (x.readView k.view k.view.width).setWidth 64 := by
  rw [readBus, selected_header, offsetOfSelect_header, widthOfCode_header]
  refine BitVec.eq_of_getLsbD_eq fun j hj => ?_
  rw [BitVec.getLsbD_and, BitVec.getLsbD_ushiftRight, getLsbD_lowMask, BitVec.getLsbD_setWidth, Cells.readView,
    getLsbD_extractField, Bool.and_comm, Bool.and_assoc]

/-- The write path carries what the set writes (R98, R110). -/
theorem writeBus_header (k : Command) (d : Word) (x : Cells) :
    writeBus k.header d x = insertField (x.read k.view.cell) k.view.off k.view.width (d.setWidth k.view.width) := by
  rw [writeBus, maskingUnit, selected_header, offsetOfSelect_header, widthOfCode_header]

/-! What a wired cycle does, in the order of R134. -/

theorem nextState_of_reset (s : State) (hr : s.portIn.rst = true) : nextState s = resetCycle s.afterPortIn := by
  simp [nextState, nextCells, response, nextFaults, go, refuse, hr, resetCycle, State.afterPortIn, Response.none]

theorem nextState_of_idle (s : State) (hr : s.portIn.rst = false) (hv : s.portIn.cmdValid = false) :
    nextState s = idleCycle s.afterPortIn := by
  simp [nextState, nextCells, response, nextFaults, go, refuse, hr, hv, idleCycle, State.afterPortIn, Response.none]

theorem nextState_of_reserved (s : State) (hr : s.portIn.rst = false) (hv : s.portIn.cmdValid = true)
    (hres : s.portIn.cmd.header.reserved = true) :
    nextState s = takeIllegalCommand s.portIn.cmd.header s.afterPortIn := by
  simp [nextState, nextCells, response, nextFaults, go, refuse, hr, hv, hres, takeIllegalCommand, State.afterPortIn,
    Response.illegal]

theorem nextState_of_legal_get (s : State) (hr : s.portIn.rst = false) (hv : s.portIn.cmdValid = true)
    (hres : s.portIn.cmd.header.reserved = false) (hset : isSet s.portIn.cmd.header = false) :
    nextState s = { s.afterPortIn with rsp := ⟨true, false, readBus s.portIn.cmd.header s.cells⟩ } := by
  simp [nextState, nextCells, response, nextFaults, go, refuse, hr, hv, hres, hset, State.afterPortIn]

theorem nextState_of_legal_set (s : State) (hr : s.portIn.rst = false) (hv : s.portIn.cmdValid = true)
    (hres : s.portIn.cmd.header.reserved = false) (hset : isSet s.portIn.cmd.header = true) :
    nextState s = { s.afterPortIn with
      cells := s.cells.write (Role.ofIndex (cellIndex s.portIn.cmd.header))
        (writeBus s.portIn.cmd.header s.portIn.cmd.data s.cells)
      rsp := Response.done } := by
  simp [nextState, nextCells, response, nextFaults, go, refuse, hr, hv, hres, hset, State.afterPortIn, Response.done]

/-- A wired cycle with a word that decodes performs its command: the wires carry the command's read and write (R62, R70). -/
theorem nextState_of_decode_ok (s : State) (i : Instr) (hr : s.portIn.rst = false) (hv : s.portIn.cmdValid = true)
    (hd : decode s.portIn.cmd = .ok i) : nextState s = perform i.command s.afterPortIn := by
  have hres := reserved_of_decode_ok hd
  obtain ⟨hheader, hvalue⟩ := (decode_eq_ok_iff _ i).1 hd
  have hset : isSet s.portIn.cmd.header = decide (i.command.op = .set) := by rw [← hheader, isSet_header]
  cases hop : i.command.op with
  | get =>
    rw [nextState_of_legal_get s hr hv hres (by rw [hset, hop]; rfl), perform_get _ _ hop, ← hheader, readBus_header,
      i.command.view_width]
    rfl
  | set =>
    rw [nextState_of_legal_set s hr hv hres (by rw [hset, hop]; rfl), perform_set _ _ hop, ← hheader, cell_header,
      writeBus_header, i.command.view_width, applyTyped_set_cells _ _ hop, Cells.writeView,
      ← i.command.setWidth_operand _ hop, ← hvalue]
    rfl

end Datapath

/-- Settles O40, in the order of R134. -/
theorem wiredDatapathIsTheStep : Obligations.WiredDatapathIsTheStep := by
  intro s
  rcases step_cases s with ⟨hr, h⟩ | ⟨hr, hv, h⟩ | ⟨hr, hv, i, hd, h⟩ | ⟨hr, hv, e, hd, h⟩
  · rw [h, Datapath.nextState_of_reset s hr]
  · rw [h, Datapath.nextState_of_idle s hr hv]
  · rw [h, Datapath.nextState_of_decode_ok s i hr hv hd]
  · rw [h, Datapath.nextState_of_reserved s hr hv ((exists_decode_error_iff _).1 ⟨e, hd⟩)]

/-! ## Runs of encoded commands (R61) -/

/-- The run of the canonical words of typed commands is the typed run, one step a command. -/
theorem run_encodeCommand (s : State) (ks : List Command)
    (hin : s.inputs = ks.map fun k => PortIn.present (encodeCommand k)) :
    ∃ t, runInputs s = .next t ∧ t.inputs = [] ∧ t.faults = s.faults ∧ t.cells = (runTyped ks s.cells).1 ∧
      responsesOf ks.length s = (runTyped ks s.cells).2.map TypedResult.response := by
  induction ks generalizing s with
  | nil => exact ⟨s, runInputs_nil s hin, hin, rfl, rfl, rfl⟩
  | cons k ks ih =>
    rw [List.map_cons] at hin
    have hstep : step s = .next (perform k s.afterPortIn) := by
      rw [step_of_legal hin (decode_encodeCommand k), command_instr]
    have hrest : (perform k s.afterPortIn).inputs = ks.map fun k => PortIn.present (encodeCommand k) := by
      rw [perform_inputs, afterPortIn_inputs, hin, List.tail_cons]
    obtain ⟨t, hrun, hnil, hfaults, hcells, hrsp⟩ := ih _ hrest
    refine ⟨t, (runInputs_cons s _ _ _ hin hrest hstep).trans hrun, hnil, hfaults, hcells, ?_⟩
    simp only [List.length_cons, responsesOf, hstep, hrsp]
    rfl

/-- Settles O41. -/
theorem runOfEncodedCommandsIsTheTypedRun : Obligations.RunOfEncodedCommandsIsTheTypedRun :=
  run_encodeCommand

end Sys2Proof.Machine
end

section
/-! PROOFS. The family `30_encoding.md`, second part: the text of commands (R79). First what each function of the assembler accepts, from
words to whole texts, with the statement O50; then the lexer on printed text and the statement O49. -/

namespace Sys2Proof.Text

/-! ## Raw and typed commands -/

/-- A raw command written down from a typed one passes the checks of R79 and is that command. -/
@[simp] theorem typed_raw (k : Command) : typed k.raw = .ok k := by
  cases k with
  | get64 id | get32 id | get16 id | get8 id => rfl
  | set64 id v | set32 id v | set16 id v | set8 id v =>
    simp [typed, Command.raw, RawCommand.identInClass, RawCommand.valueShape, RawCommand.valueFits, AnyId.widthClass,
      WidthClass.bits, v.isLt]

/-- The raw commands that pass the checks of R79 are those of the typed commands. -/
theorem exists_raw_of_wellFormed (r : RawCommand) (h : r.wellFormed = true) : ∃ k : Command, k.raw = r := by
  obtain ⟨op, width, ident, value⟩ := r
  simp only [RawCommand.wellFormed, Bool.and_eq_true, RawCommand.identInClass, decide_eq_true_eq] at h
  obtain ⟨⟨rfl, hshape⟩, hfits⟩ := h
  cases op with
  | get =>
    obtain rfl : value = none := by simpa [RawCommand.valueShape] using hshape
    cases ident with
    | id64 i => exact ⟨.get64 i, rfl⟩
    | id32 i => exact ⟨.get32 i, rfl⟩
    | id16 i => exact ⟨.get16 i, rfl⟩
    | id8 i => exact ⟨.get8 i, rfl⟩
  | set =>
    obtain ⟨v, rfl⟩ : ∃ v, value = some v := by simpa [RawCommand.valueShape, Option.isSome_iff_exists] using hshape
    have hv : v < 2 ^ ident.widthClass.bits := by simpa [RawCommand.valueFits] using hfits
    cases ident with
    | id64 i => exact ⟨.set64 i (BitVec.ofNatLT v hv), rfl⟩
    | id32 i => exact ⟨.set32 i (BitVec.ofNatLT v hv), rfl⟩
    | id16 i => exact ⟨.set16 i (BitVec.ofNatLT v hv), rfl⟩
    | id8 i => exact ⟨.set8 i (BitVec.ofNatLT v hv), rfl⟩

/-- A raw command that fails a check of R79 has no typed command. -/
theorem wellFormed_of_typed_ok {r : RawCommand} {k : Command} (h : typed r = .ok k) : r.wellFormed = true := by
  unfold typed at h
  split_ifs at h with hclass hshape hfits
  simp_all [RawCommand.wellFormed]

/-- A raw command is typed as `k` exactly if it is `k` written down (R79: nothing is truncated). -/
theorem typed_eq_ok_iff (r : RawCommand) (k : Command) : typed r = .ok k ↔ k.raw = r := by
  constructor
  · intro h
    obtain ⟨l, rfl⟩ := exists_raw_of_wellFormed r (wellFormed_of_typed_ok h)
    rw [Except.ok.inj ((typed_raw l).symm.trans h)]
  · rintro rfl
    exact typed_raw k

theorem exists_typed_iff (r : RawCommand) : (∃ k, typed r = .ok k) ↔ r.wellFormed = true := by
  constructor
  · rintro ⟨k, hk⟩
    exact wellFormed_of_typed_ok hk
  · intro h
    obtain ⟨k, rfl⟩ := exists_raw_of_wellFormed r h
    exact ⟨k, typed_raw k⟩

/-- A command is a get exactly if its raw form has no value (R81). -/
theorem raw_value_eq_none_iff (k : Command) : k.raw.value = none ↔ k.raw.op = .get := by
  cases k <;> simp [Command.raw]

/-! ## Mnemonics -/

@[simp] theorem findOp_opName (o : Op) (w : WidthClass) : findOp (opName o w) = some (o, w) := by
  cases o <;> cases w <;> rfl

@[simp] theorem findId_idName (i : AnyId) : findId (idName i) = some i := by
  cases i <;> rename_i i <;> cases i <;> rfl

theorem findOp_eq_some_iff (cs : List Char) (o : Op) (w : WidthClass) : findOp cs = some (o, w) ↔ opName o w = cs := by
  constructor
  · intro h
    simpa using List.find?_some h
  · rintro rfl
    exact findOp_opName o w

theorem findId_eq_some_iff (cs : List Char) (i : AnyId) : findId cs = some i ↔ idName i = cs := by
  constructor
  · intro h
    simpa using List.find?_some h
  · rintro rfl
    exact findId_idName i

/-! ## Numerals -/

/-- Digits are read exactly if each is an underscore or a hexadecimal digit (R11). -/
theorem exists_hexValue_iff (cs : List Char) (n : Nat) :
    (∃ m, hexValue cs n = some m) ↔ ∀ d ∈ cs, d = '_' ∨ (hexDigit d).isSome = true := by
  induction cs generalizing n with
  | nil => simp [hexValue]
  | cons c cs ih =>
    rw [hexValue, List.forall_mem_cons]
    by_cases hc : c = '_'
    · simp [hc, ih n]
    · cases hd : hexDigit c with
      | none => simp [hc]
      | some d => simp [hc, ih (16 * n + d)]

theorem exists_numeral_iff (w : List Char) :
    (∃ n, numeral w = some n) ↔ ∃ c cs, w = '0' :: 'x' :: c :: cs ∧ (hexDigit c).isSome = true ∧
      ∀ d ∈ cs, d = '_' ∨ (hexDigit d).isSome = true := by
  constructor
  · rintro ⟨n, h⟩
    unfold numeral at h
    split at h
    next a b c cs =>
      split_ifs at h with hpre
      obtain ⟨rfl, rfl, hc⟩ := hpre
      have hall := (exists_hexValue_iff (c :: cs) 0).1 ⟨n, h⟩
      exact ⟨c, cs, rfl, hc, fun d hd => hall d (List.mem_cons_of_mem c hd)⟩
    next => cases h
  · rintro ⟨c, cs, rfl, hc, hcs⟩
    obtain ⟨n, hn⟩ := (exists_hexValue_iff (c :: cs) 0).2 (List.forall_mem_cons.2 ⟨.inr hc, hcs⟩)
    exact ⟨n, by simp [numeral, hc, hn]⟩

/-! ## Pieces -/

/-- Two words and a value are a command exactly if they are its mnemonics and its value (R79). -/
theorem commandOf_eq_ok_iff (op id : List Char) (v : Option Nat) (k : Command) :
    commandOf op id v = .ok k ↔
      op = opName k.raw.op k.raw.width ∧ id = idName k.raw.ident ∧ v = k.raw.value := by
  constructor
  · intro h
    unfold commandOf rawOf at h
    cases hop : findOp op with
    | none => simp [hop] at h
    | some o =>
      cases hid : findId id with
      | none => simp [hop, hid] at h
      | some i =>
        rw [hop, hid] at h
        rw [(typed_eq_ok_iff _ k).1 h]
        exact ⟨((findOp_eq_some_iff op o.1 o.2).1 hop).symm, ((findId_eq_some_iff id i).1 hid).symm, rfl⟩
  · rintro ⟨rfl, rfl, rfl⟩
    simp only [commandOf, rawOf, findOp_opName, findId_idName]
    exact typed_raw k

@[simp] theorem itemOf_none (k : Command) : itemOf k none = .ok ⟨k, none⟩ := rfl

/-- The harness's value stands beside a get in whose width it fits (R79). -/
theorem itemOf_some_eq_ok_iff (k : Command) (n : Nat) (x : Item) :
    itemOf k (some n) = .ok x ↔ k.raw.value = none ∧ n < 2 ^ k.raw.width.bits ∧ x = ⟨k, some n⟩ := by
  rw [raw_value_eq_none_iff]
  cases hop : k.raw.op with
  | set => simp [itemOf, hop]
  | get =>
    by_cases hn : n < 2 ^ k.raw.width.bits
    · simpa [itemOf, hop, hn] using eq_comm
    · simp [itemOf, hop, hn]

/-- A parsed piece has one of the three forms. -/
theorem pieceOf_of_parsePiece {p : List Token} {x : Item} (h : parsePiece p = .ok x) : Claims.PieceOf p x := by
  unfold parsePiece at h
  split at h
  next op id =>
    cases hk : commandOf op id none with
    | error e => simp [hk] at h
    | ok k =>
      obtain rfl : ⟨k, none⟩ = x := by simpa [hk] using h
      obtain ⟨rfl, rfl, hv⟩ := (commandOf_eq_ok_iff _ _ _ k).1 hk
      exact .inl ⟨hv.symm, rfl, rfl⟩
  next op id v =>
    cases hn : numeral v with
    | none => simp [hn] at h
    | some n =>
      cases hk : commandOf op id (some n) with
      | error e => simp [hn, hk] at h
      | ok k =>
        obtain rfl : ⟨k, none⟩ = x := by simpa [hn, hk] using h
        obtain ⟨rfl, rfl, hv⟩ := (commandOf_eq_ok_iff _ _ _ k).1 hk
        exact .inr (.inl ⟨v, n, hv.symm, rfl, hn, rfl⟩)
  next op id v =>
    cases hn : numeral v with
    | none => simp [hn] at h
    | some n =>
      cases hk : commandOf op id none with
      | error e => simp [hn, hk] at h
      | ok k =>
        obtain ⟨hv, hfits, rfl⟩ := (itemOf_some_eq_ok_iff k n x).1 (by simpa [hn, hk] using h)
        obtain ⟨rfl, rfl, -⟩ := (commandOf_eq_ok_iff _ _ _ k).1 hk
        exact .inr (.inr ⟨v, n, hv, rfl, hfits, hn, rfl⟩)
  next => cases h

/-- A piece of one of the three forms is parsed as its item. -/
theorem parsePiece_of_pieceOf {p : List Token} {x : Item} (h : Claims.PieceOf p x) : parsePiece p = .ok x := by
  obtain ⟨k, e⟩ := x
  have hcommand {v : Option Nat} (hv : k.raw.value = v) :
      commandOf (opName k.raw.op k.raw.width) (idName k.raw.ident) v = .ok k :=
    (commandOf_eq_ok_iff _ _ _ k).2 ⟨rfl, rfl, hv.symm⟩
  obtain ⟨hv, rfl, rfl⟩ | ⟨v, n, hv, rfl, hn, rfl⟩ | ⟨v, n, hv, rfl, hfits, hn, rfl⟩ := h
  · simp only [parsePiece, hcommand hv, itemOf_none]
  · simp only [parsePiece, hn, hcommand hv, itemOf_none]
  · simp only [parsePiece, hn, hcommand hv]
    exact (itemOf_some_eq_ok_iff k n _).2 ⟨hv, hfits, rfl⟩

theorem parsePiece_eq_ok_iff (p : List Token) (x : Item) : parsePiece p = .ok x ↔ Claims.PieceOf p x :=
  ⟨pieceOf_of_parsePiece, parsePiece_of_pieceOf⟩

/-! ## Whole texts -/

/-- A list of pieces is parsed piece by piece, each accepted. -/
theorem parsePieces_eq_ok_iff (ps : List (List Token)) (xs : List Item) :
    parsePieces ps = .ok xs ↔ List.Forall₂ (fun p x => parsePiece p = .ok x) ps xs := by
  induction ps generalizing xs with
  | nil => simp [parsePieces, eq_comm]
  | cons p ps ih =>
    rw [List.forall₂_cons_left_iff]
    simp only [parsePieces, ← ih]
    cases parsePiece p with
    | error e => simp
    | ok x => cases parsePieces ps <;> simp [eq_comm]

/-- A list of pieces is parsed exactly if each piece is. -/
theorem exists_parsePieces_iff (ps : List (List Token)) :
    (∃ xs, parsePieces ps = .ok xs) ↔ ∀ p ∈ ps, ∃ x, parsePiece p = .ok x := by
  simp only [parsePieces_eq_ok_iff]
  induction ps with
  | nil => simp
  | cons p ps ih => simp [List.forall₂_cons_left_iff, ← ih]

/-- A text that splits into tokens assembles as its pieces that are not empty. -/
theorem assemble_of_lex {text : List Char} {ts : List Token} (h : lex text [] false = some ts) :
    assemble text = parsePieces ((pieces ts).filter fun p => !p.isEmpty) := by
  simp only [assemble, h]

theorem exists_assemble_iff (text : List Char) :
    (∃ xs, assemble text = .ok xs) ↔
      ∃ ts, lex text [] false = some ts ∧ ∀ p ∈ pieces ts, p ≠ [] → ∃ x, Claims.PieceOf p x := by
  cases h : lex text [] false with
  | none => simp [assemble, h]
  | some ts => simp [assemble_of_lex h, exists_parsePieces_iff, parsePiece_eq_ok_iff]

/-- Settles O50: what each function of the assembler accepts, from raw commands to whole texts. -/
theorem textIsRefusedExactlyWhenIllFormed : Obligations.TextIsRefusedExactlyWhenIllFormed :=
  ⟨exists_typed_iff, fun r k => (typed_eq_ok_iff r k).1, findOp_eq_some_iff, findId_eq_some_iff, exists_numeral_iff,
    parsePiece_eq_ok_iff, exists_assemble_iff, rfl, rfl, rfl⟩

/-! ## Printed numerals -/

/-- The numeral the printer writes for a value of a class: `0x` and all the digits of the width (R79). -/
def numeralText (width : WidthClass) (v : Nat) : List Char := '0' :: 'x' :: hexDigits (width.bits / 4) v

/-- Printed digits read as the value they print, after the value read so far. -/
theorem hexValue_hexDigits (n v m : Nat) : hexValue (hexDigits n v) m = some (m * 16 ^ n + v % 16 ^ n) := by
  induction n generalizing m with
  | zero => simp [hexDigits, hexValue, Nat.mod_one]
  | succ n ih =>
    obtain ⟨-, hdigit, hne⟩ := digitChar_spec (v / 16 ^ n % 16) (Nat.mod_lt _ (by decide))
    simp only [hexDigits, hexValue, hne, if_false, hdigit, ih]
    rw [Nat.pow_succ, Nat.mod_mul, Option.some_inj]
    ring

/-- The printed numeral of a value that fits in the width reads as the value. -/
theorem numeral_numeralText (width : WidthClass) (v : Nat) (h : v < 2 ^ width.bits) :
    numeral (numeralText width v) = some v := by
  have hpow : 2 ^ width.bits = 16 ^ (width.bits / 4) := by cases width <;> rfl
  obtain ⟨n, hn⟩ := Nat.exists_eq_succ_of_ne_zero (show width.bits / 4 ≠ 0 by cases width <;> decide)
  have hread := hexValue_hexDigits (width.bits / 4) v 0
  rw [← hpow, Nat.mod_eq_of_lt h, hn, hexDigits] at hread
  have hfirst := (digitChar_spec (v / 16 ^ n % 16) (Nat.mod_lt _ (by decide))).2.1
  simpa [numeralText, hn, hexDigits, numeral, hfirst] using hread

theorem numeralText_isWordChar (width : WidthClass) (v : Nat) : ∀ c ∈ numeralText width v, isWordChar c = true := by
  simpa [numeralText, show isWordChar '0' = true from rfl, show isWordChar 'x' = true from rfl] using
    hexDigits_isWordChar (width.bits / 4) v

/-! ## Where a word ends -/

/-- At the text `cs` a word that is being read ends. -/
def EndsWord (cs : List Char) : Prop := ∀ acc, lex cs acc false = (lex cs [] false).map (closeWord acc)

theorem endsWord_nil : EndsWord [] := fun _ => rfl

theorem endsWord_space (cs : List Char) : EndsWord (' ' :: cs) := fun acc => by
  rw [lex_space, lex_space cs [], Option.map_map]
  rfl

theorem endsWord_symbol (c : Char) (t : Token) (cs : List Char) (hw : isWordChar c = false) (he : c ≠ '=') (hs : c ≠ ' ')
    (ht : symbol c = some t) : EndsWord (c :: cs) := fun acc => by
  rw [lex_symbol c t cs acc hw he hs ht, lex_symbol c t cs [] hw he hs ht, Option.map_map]
  rfl

/-- A word up to where it ends is one token. -/
theorem lex_word_of_endsWord (w cs : List Char) (hne : w ≠ []) (hw : ∀ c ∈ w, isWordChar c = true) (hcs : EndsWord cs) :
    lex (w ++ cs) [] false = (lex cs [] false).map (.word w :: ·) := by
  rw [lex_word w hw, List.append_nil, hcs]
  exact congrArg (Option.map · _) (funext fun ts => closeWord_reverse w ts hne)

/-! ## The tokens of printed text -/

/-- The tokens of a set's value, from the comma on. -/
def valueTokens (width : WidthClass) : Option Nat → List Token
  | none => []
  | some v => [.comma, .word (numeralText width v)]

/-- The tokens of a printed command. -/
def commandTokens (k : Command) : List Token :=
  .word (opName k.raw.op k.raw.width) :: .lparen :: .word (idName k.raw.ident) ::
    (valueTokens k.raw.width k.raw.value ++ [.rparen])

/-- The tokens of the harness's value, from the `==` on. -/
def expectedTokens (width : WidthClass) : Option Nat → List Token
  | none => []
  | some e => [.eqeq, .word (numeralText width e)]

/-- The tokens of a printed item. -/
def itemTokens (x : Item) : List Token :=
  commandTokens x.command ++ expectedTokens x.command.raw.width x.expected

/-- The tokens of a printed sequence: whatever the separator, it is one token. -/
def seqTokens : List Item → List Token
  | [] => []
  | [x] => itemTokens x
  | x :: y :: xs => itemTokens x ++ .sep :: seqTokens (y :: xs)

theorem endsWord_rparen (cs : List Char) : EndsWord (')' :: cs) :=
  endsWord_symbol ')' .rparen cs rfl (by decide) (by decide) rfl

theorem lex_rparen (cs : List Char) : lex (')' :: cs) [] false = (lex cs [] false).map (.rparen :: ·) :=
  lex_symbol ')' .rparen cs [] rfl (by decide) (by decide) rfl

theorem lex_lparen (cs : List Char) : lex ('(' :: cs) [] false = (lex cs [] false).map (.lparen :: ·) :=
  lex_symbol '(' .lparen cs [] rfl (by decide) (by decide) rfl

theorem lex_comma (cs : List Char) : lex (',' :: cs) [] false = (lex cs [] false).map (.comma :: ·) :=
  lex_symbol ',' .comma cs [] rfl (by decide) (by decide) rfl

/-- A space before a token is skipped. -/
theorem lex_space_nil (cs : List Char) : lex (' ' :: cs) [] false = lex cs [] false := by
  rw [lex_space]
  exact Option.map_id_apply

theorem lex_numeralText (width : WidthClass) (v : Nat) (cs : List Char) (hcs : EndsWord cs) :
    lex (numeralText width v ++ cs) [] false = (lex cs [] false).map (.word (numeralText width v) :: ·) :=
  lex_word_of_endsWord _ cs (List.cons_ne_nil _ _) (numeralText_isWordChar width v) hcs

/-- What follows the identifier of a printed command ends the identifier's word. -/
theorem endsWord_renderValue (width : WidthClass) (v : Option Nat) (cs : List Char) :
    EndsWord (renderValue width v ++ ')' :: cs) := by
  cases v with
  | none => exact endsWord_rparen cs
  | some v => exact endsWord_symbol ',' .comma _ rfl (by decide) (by decide) rfl

theorem lex_renderValue (width : WidthClass) (v : Option Nat) (cs : List Char) :
    lex (renderValue width v ++ ')' :: cs) [] false =
      (lex cs [] false).map (valueTokens width v ++ .rparen :: ·) := by
  cases v with
  | none => exact lex_rparen cs
  | some v =>
    have htext : renderValue width (some v) ++ ')' :: cs = ',' :: ' ' :: (numeralText width v ++ ')' :: cs) := rfl
    rw [htext, lex_comma, lex_space_nil, lex_numeralText _ _ _ (endsWord_rparen cs), lex_rparen, Option.map_map, Option.map_map]
    rfl

/-- A printed command lexes to its tokens, whatever follows it. -/
theorem lex_render (k : Command) (cs : List Char) :
    lex (render k ++ cs) [] false = (lex cs [] false).map (commandTokens k ++ ·) := by
  have htext : render k ++ cs = opName k.raw.op k.raw.width ++ '(' :: (idName k.raw.ident ++
      (renderValue k.raw.width k.raw.value ++ ')' :: cs)) := by simp [render]
  rw [htext, lex_word_of_endsWord _ _ (opName_ne_nil _ _) (opName_isWordChar _ _)
      (endsWord_symbol '(' .lparen _ rfl (by decide) (by decide) rfl), lex_lparen,
    lex_word_of_endsWord _ _ (idName_ne_nil _) (idName_isWordChar _) (endsWord_renderValue _ _ _), lex_renderValue]
  simp [Function.comp_def, commandTokens]

theorem lex_renderExpected (width : WidthClass) (e : Option Nat) (cs : List Char) (hcs : EndsWord cs) :
    lex (renderExpected width e ++ cs) [] false = (lex cs [] false).map (expectedTokens width e ++ ·) := by
  cases e with
  | none => exact Option.map_id_apply.symm
  | some e =>
    have htext : renderExpected width (some e) ++ cs = ' ' :: '=' :: '=' :: ' ' :: (numeralText width e ++ cs) := rfl
    rw [htext, lex_space_nil, lex_eqeq, lex_space_nil, lex_numeralText _ _ _ hcs, Option.map_map]
    rfl

/-- A printed item lexes to its tokens where no word runs on. -/
theorem lex_renderItem (x : Item) (cs : List Char) (hcs : EndsWord cs) :
    lex (renderItem x ++ cs) [] false = (lex cs [] false).map (itemTokens x ++ ·) := by
  rw [renderItem, List.append_assoc, lex_render, lex_renderExpected _ _ _ hcs, Option.map_map]
  simp [Function.comp_def, itemTokens]

/-- The text `sep` ends a word and is the separator token. -/
def IsSeparator (sep : List Char) : Prop :=
  ∀ cs, EndsWord (sep ++ cs) ∧ lex (sep ++ cs) [] false = (lex cs [] false).map (.sep :: ·)

theorem isSeparator_symbol (c : Char) (hw : isWordChar c = false) (he : c ≠ '=') (hs : c ≠ ' ') (ht : symbol c = some .sep) :
    IsSeparator [c] :=
  fun cs => ⟨endsWord_symbol c .sep cs hw he hs ht, lex_symbol c .sep cs [] hw he hs ht⟩

/-- A separator may have a space after it. -/
theorem IsSeparator.append_space {sep : List Char} (h : IsSeparator sep) : IsSeparator (sep ++ [' ']) := fun cs => by
  obtain ⟨hends, hlex⟩ := h (' ' :: cs)
  rw [List.append_assoc]
  exact ⟨hends, hlex.trans (by rw [lex_space_nil])⟩

/-- A line end, a `;`, and a `;` with a space are separators (R79). -/
theorem isSeparator_of_mem (sep : List Char) (h : sep ∈ ["\n".toList, ";".toList, "; ".toList]) : IsSeparator sep := by
  have hsemicolon := isSeparator_symbol ';' rfl (by decide) (by decide) rfl
  simp only [List.mem_cons, List.not_mem_nil, or_false] at h
  rcases h with rfl | rfl | rfl
  · exact isSeparator_symbol '\n' rfl (by decide) (by decide) rfl
  · exact hsemicolon
  · exact hsemicolon.append_space

/-- A printed sequence lexes to its tokens. -/
theorem lex_renderSeq (sep : List Char) (hsep : IsSeparator sep) (xs : List Item) :
    lex (renderSeq sep xs) [] false = some (seqTokens xs) := by
  induction xs using seqTokens.induct with
  | case1 => rfl
  | case2 x =>
    have h := lex_renderItem x [] endsWord_nil
    rw [List.append_nil] at h
    simpa [renderSeq, seqTokens, lex] using h
  | case3 x y xs ih =>
    obtain ⟨hends, hlex⟩ := hsep (renderSeq sep (y :: xs))
    rw [renderSeq, lex_renderItem _ _ hends, hlex, ih]
    rfl

/-! ## The pieces of printed text -/

theorem pieces_ne_nil (ts : List Token) : pieces ts ≠ [] := by
  cases ts with
  | nil => exact List.cons_ne_nil _ _
  | cons t ts =>
    rw [pieces]
    split
    · exact List.cons_ne_nil _ _
    · split <;> exact List.cons_ne_nil _ _

/-- A token other than a separator goes to the first piece. -/
theorem pieces_cons (t : Token) (ts p : List Token) (ps : List (List Token)) (ht : t ≠ .sep) (h : pieces ts = p :: ps) :
    pieces (t :: ts) = (t :: p) :: ps := by
  simp [pieces, h, ht]

/-- A separator begins a new piece. -/
theorem pieces_sep (ts : List Token) : pieces (.sep :: ts) = [] :: pieces ts := by
  obtain ⟨p, ps, h⟩ := List.exists_cons_of_ne_nil (pieces_ne_nil ts)
  simp [pieces, h]

theorem pieces_append (q ts p : List Token) (ps : List (List Token)) (hq : .sep ∉ q) (h : pieces ts = p :: ps) :
    pieces (q ++ ts) = (q ++ p) :: ps := by
  induction q with
  | nil => exact h
  | cons t q ih =>
    obtain ⟨ht, hq⟩ := not_or.1 (mt List.mem_cons.2 hq)
    exact pieces_cons t _ _ ps (Ne.symm ht) (ih hq)

theorem sep_not_mem_itemTokens (x : Item) : .sep ∉ itemTokens x := by
  obtain ⟨k, e⟩ := x
  cases hv : k.raw.value <;> cases e <;> simp [itemTokens, commandTokens, valueTokens, expectedTokens, hv]

/-- The pieces of a printed sequence that are not empty are its items. -/
theorem pieces_seqTokens (xs : List Item) :
    (pieces (seqTokens xs)).filter (fun p => !p.isEmpty) = xs.map itemTokens := by
  induction xs using seqTokens.induct with
  | case1 => rfl
  | case2 x =>
    have h := pieces_append (itemTokens x) [] [] [] (sep_not_mem_itemTokens x) rfl
    rw [List.append_nil] at h
    rw [seqTokens, h]
    rfl
  | case3 x y xs ih =>
    rw [seqTokens, pieces_append _ _ _ _ (sep_not_mem_itemTokens x) (pieces_sep _), List.append_nil, List.map_cons, ← ih]
    rfl

/-! ## Assembling printed text -/

/-- The value of a command fits in its width (R60). -/
theorem raw_value_lt {k : Command} {v : Nat} (h : k.raw.value = some v) : v < 2 ^ k.raw.width.bits := by
  have hwf := wellFormed_of_typed_ok (typed_raw k)
  simp only [RawCommand.wellFormed, Bool.and_eq_true, RawCommand.valueFits, h, decide_eq_true_eq] at hwf
  exact hwf.2

/-- The tokens of a printed item have the form of that item. -/
theorem pieceOf_itemTokens (x : Item) (h : x.wellFormed = true) : Claims.PieceOf (itemTokens x) x := by
  obtain ⟨k, e⟩ := x
  cases e with
  | none =>
    cases hv : k.raw.value with
    | none => exact .inl ⟨hv, rfl, by simp [itemTokens, commandTokens, valueTokens, expectedTokens, hv]⟩
    | some v =>
      exact .inr (.inl ⟨numeralText k.raw.width v, v, hv, rfl, numeral_numeralText _ v (raw_value_lt hv),
        by simp [itemTokens, commandTokens, valueTokens, expectedTokens, hv]⟩)
  | some e =>
    obtain ⟨hop, hfits⟩ : k.raw.op = .get ∧ e < 2 ^ k.raw.width.bits := by simpa [Item.wellFormed] using h
    have hv := (raw_value_eq_none_iff k).2 hop
    exact .inr (.inr ⟨numeralText k.raw.width e, e, hv, rfl, hfits, numeral_numeralText _ e hfits,
      by simp [itemTokens, commandTokens, valueTokens, expectedTokens, hv]⟩)

theorem parsePieces_itemTokens (xs : List Item) (h : ∀ x ∈ xs, x.wellFormed = true) :
    parsePieces (xs.map itemTokens) = .ok xs := by
  rw [parsePieces_eq_ok_iff, List.forall₂_map_left_iff, List.forall₂_same]
  exact fun x hx => parsePiece_of_pieceOf (pieceOf_itemTokens x (h x hx))

/-- The text of a sequence of well-formed items assembles to it (R79). -/
theorem assemble_renderSeq (sep : List Char) (hsep : IsSeparator sep) (xs : List Item) (h : ∀ x ∈ xs, x.wellFormed = true) :
    assemble (renderSeq sep xs) = .ok xs := by
  rw [assemble_of_lex (lex_renderSeq sep hsep xs), pieces_seqTokens, parsePieces_itemTokens xs h]

/-- Settles O49: a single command is the sequence of it alone. -/
theorem assemblingARenderedCommandGivesItBack : Obligations.AssemblingARenderedCommandGivesItBack := by
  refine ⟨fun k => ?_, fun sep hsep => assemble_renderSeq sep (isSeparator_of_mem sep hsep)⟩
  have h := assemble_renderSeq ";".toList (isSeparator_of_mem _ (by simp)) [⟨k, none⟩] (by simp [Item.wellFormed])
  simpa [renderSeq, renderItem, renderExpected] using h

end Sys2Proof.Text
end

section
/-! PROOFS. The family `40_masking_unit.md`. First the bits of the masks (R91, R94) and the fields that instructions have (R90), then
the laws of Extract and Insert (R96), each by comparing single bits, and last the statements O17 to O22 from these. -/

namespace Sys2Proof.Machine

/-! ## The masks (R91, R94) -/

/-- The field mask is one exactly in the field (R91). -/
theorem getLsbD_fieldMask (off w j : Nat) (hj : j < 64) :
    (fieldMask off w).getLsbD j = decide (off ≤ j ∧ j < off + w) := by
  rw [fieldMask, BitVec.getLsbD_shiftLeft, getLsbD_lowMask, Bool.eq_iff_iff]
  simp only [Bool.and_eq_true, Bool.not_eq_true', decide_eq_true_eq, decide_eq_false_iff_not]
  omega

/-- Two masks have no common one exactly if no bit is in both fields. -/
theorem fieldMask_disjoint_iff (off₁ w₁ off₂ w₂ : Nat) :
    fieldMask off₁ w₁ &&& fieldMask off₂ w₂ = 0#64 ↔
      ∀ j, j < 64 → (off₁ ≤ j ∧ j < off₁ + w₁) → ¬ (off₂ ≤ j ∧ j < off₂ + w₂) := by
  rw [BitVec.eq_of_getLsbD_eq_iff]
  refine forall₂_congr fun j hj => ?_
  rw [BitVec.getLsbD_and, getLsbD_fieldMask _ _ _ hj, getLsbD_fieldMask _ _ _ hj, BitVec.getLsbD_zero, Bool.and_eq_false_imp,
    decide_eq_true_eq, decide_eq_false_iff_not]

/-- A mask has no one outside another exactly if the other field holds every bit of its field. -/
theorem fieldMask_covered_iff (off₁ w₁ off₂ w₂ : Nat) :
    fieldMask off₁ w₁ &&& ~~~(fieldMask off₂ w₂) = 0#64 ↔
      ∀ j, j < 64 → (off₁ ≤ j ∧ j < off₁ + w₁) → (off₂ ≤ j ∧ j < off₂ + w₂) := by
  rw [BitVec.eq_of_getLsbD_eq_iff]
  refine forall₂_congr fun j hj => ?_
  rw [BitVec.getLsbD_and, BitVec.getLsbD_not, getLsbD_fieldMask _ _ _ hj, getLsbD_fieldMask _ _ _ hj, BitVec.getLsbD_zero,
    decide_eq_true hj, Bool.true_and, Bool.and_eq_false_imp, decide_eq_true_eq, Bool.not_eq_false', decide_eq_true_eq]

/-- Under the mask only the low `w` bits of a word count (R94). -/
theorem setWidth_setWidth_and_lowMask (w : Nat) (data : Word) :
    (data.setWidth w).setWidth 64 &&& lowMask w = data &&& lowMask w := by
  refine BitVec.eq_of_getLsbD_eq fun j hj => ?_
  simp only [BitVec.getLsbD_and, BitVec.getLsbD_setWidth, getLsbD_lowMask, hj]
  cases decide (j < w) <;> simp

/-- The mask changes no value of the field's width (R94). -/
theorem setWidth_and_lowMask {w : Nat} (v : BitVec w) : v.setWidth 64 &&& lowMask w = v.setWidth 64 := by
  refine BitVec.eq_of_getLsbD_eq fun j hj => ?_
  rw [BitVec.getLsbD_and, BitVec.getLsbD_setWidth, getLsbD_lowMask]
  by_cases hw : j < w
  · simp [hj, hw]
  · simp [BitVec.getLsbD_of_ge v j (Nat.not_lt.1 hw)]

/-! ## The fields of the instructions (R90) -/

/-- The five pairs of offset and width (R90). -/
def instrFields : List (Nat × Nat) := [(0, 64), (0, 32), (0, 16), (0, 8), (8, 8)]

/-- The field of an instruction is one of the five. -/
theorem field_mem_instrFields (i : Instr) : (i.view.off, i.view.width) ∈ instrFields := by
  unfold Instr.view
  cases i.command with
  | get64 id | get32 id | get16 id | set64 id v | set32 id v | set16 id v => simp [Command.view, instrFields]
  | get8 id | set8 id v => rcases id.view_off_cases with hoff | ⟨hoff, -⟩ <;> simp [Command.view, instrFields, hoff]

/-- The five pairs and no other are fields of instructions. -/
theorem exists_instr_field_iff (off w : Nat) :
    (∃ i : Instr, i.view.off = off ∧ i.view.width = w) ↔ (off, w) ∈ instrFields := by
  constructor
  · rintro ⟨i, rfl, rfl⟩
    exact field_mem_instrFields i
  · have key : ∀ f ∈ instrFields, ∃ i ∈ [Instr.get64RAX, .get32EAX, .get16AX, .get8AL, .get8AH],
        i.view.off = f.1 ∧ i.view.width = f.2 := by decide
    intro h
    obtain ⟨i, -, hi⟩ := key _ h
    exact ⟨i, hi⟩

/-- Any two of the five fields are disjoint, or one covers the other (L8). -/
theorem instrFields_nested_or_disjoint : ∀ f ∈ instrFields, ∀ g ∈ instrFields,
    fieldMask f.1 f.2 &&& fieldMask g.1 g.2 = 0#64 ∨ fieldMask f.1 f.2 &&& ~~~(fieldMask g.1 g.2) = 0#64 ∨
      fieldMask g.1 g.2 &&& ~~~(fieldMask f.1 f.2) = 0#64 := by
  decide

/-- Of the five fields only the two bytes are disjoint (L5). -/
theorem instrFields_disjoint_iff : ∀ f ∈ instrFields, ∀ g ∈ instrFields,
    (fieldMask f.1 f.2 &&& fieldMask g.1 g.2 = 0#64 ↔ (f = (0, 8) ∧ g = (8, 8)) ∨ (f = (8, 8) ∧ g = (0, 8))) := by
  decide

/-! ## The laws of Extract and Insert (R96) -/

/-- L1: a value inserted in a field within the cell is read back. -/
theorem extractField_insertField (cell : Word) (off w : Nat) (v : BitVec w) (h : off + w ≤ 64) :
    extractField (insertField cell off w v) off w = v := by
  refine BitVec.eq_of_getLsbD_eq fun j hj => ?_
  rw [getLsbD_extractField, getLsbD_insertField _ _ _ _ _ (by omega), if_pos (by omega), Nat.add_sub_cancel_left,
    decide_eq_true hj, Bool.true_and]

/-- L2: Insert keeps the bits outside the field. -/
theorem insertField_and_not_fieldMask (cell : Word) (off w : Nat) (v : BitVec w) :
    insertField cell off w v &&& ~~~(fieldMask off w) = cell &&& ~~~(fieldMask off w) := by
  refine BitVec.eq_of_getLsbD_eq fun j hj => ?_
  simp only [BitVec.getLsbD_and, BitVec.getLsbD_not, getLsbD_fieldMask _ _ _ hj, getLsbD_insertField _ _ _ _ _ hj]
  by_cases hin : off ≤ j ∧ j < off + w <;> simp [hin]

/-- L4: writing back what was read changes nothing. -/
theorem insertField_extractField (cell : Word) (off w : Nat) : insertField cell off w (extractField cell off w) = cell := by
  refine BitVec.eq_of_getLsbD_eq fun j hj => ?_
  rw [getLsbD_insertField _ _ _ _ _ hj]
  split
  next hin =>
    have hw : j - off < w := by omega
    rw [getLsbD_extractField, decide_eq_true hw, Bool.true_and, Nat.add_sub_cancel' hin.1]
  next => rfl

section TwoFields
variable (cell : Word) {off₁ w₁ off₂ w₂ : Nat} (v₁ : BitVec w₁) (v₂ : BitVec w₂)

/-- L5: inserts in disjoint fields commute, as no bit is written by both. -/
theorem insertField_comm (hdisj : fieldMask off₁ w₁ &&& fieldMask off₂ w₂ = 0#64) :
    insertField (insertField cell off₁ w₁ v₁) off₂ w₂ v₂ = insertField (insertField cell off₂ w₂ v₂) off₁ w₁ v₁ := by
  rw [fieldMask_disjoint_iff] at hdisj
  refine BitVec.eq_of_getLsbD_eq fun j hj => ?_
  simp only [getLsbD_insertField _ _ _ _ _ hj]
  by_cases h₁ : off₁ ≤ j ∧ j < off₁ + w₁
  · rw [if_neg (hdisj j hj h₁), if_pos h₁, if_pos h₁]
  · rw [if_neg h₁, if_neg h₁]

/-- L5: a field does not see an insert in a field disjoint from it. -/
theorem extractField_insertField_of_disjoint (hfit : off₂ + w₂ ≤ 64) (hdisj : fieldMask off₁ w₁ &&& fieldMask off₂ w₂ = 0#64) :
    extractField (insertField cell off₁ w₁ v₁) off₂ w₂ = extractField cell off₂ w₂ := by
  rw [fieldMask_disjoint_iff] at hdisj
  refine BitVec.eq_of_getLsbD_eq fun j hj => ?_
  have h64 : off₂ + j < 64 := by omega
  have hout : ¬ (off₁ ≤ off₂ + j ∧ off₂ + j < off₁ + w₁) := fun hin => hdisj _ h64 hin (by omega)
  rw [getLsbD_extractField, getLsbD_extractField, getLsbD_insertField _ _ _ _ _ h64, if_neg hout]

/-- L6: an insert hides an earlier one in a field that its own covers. -/
theorem insertField_insertField_of_covered (hcov : fieldMask off₁ w₁ &&& ~~~(fieldMask off₂ w₂) = 0#64) :
    insertField (insertField cell off₁ w₁ v₁) off₂ w₂ v₂ = insertField cell off₂ w₂ v₂ := by
  rw [fieldMask_covered_iff] at hcov
  refine BitVec.eq_of_getLsbD_eq fun j hj => ?_
  simp only [getLsbD_insertField _ _ _ _ _ hj]
  by_cases h₂ : off₂ ≤ j ∧ j < off₂ + w₂
  · rw [if_pos h₂, if_pos h₂]
  · rw [if_neg h₂, if_neg h₂, if_neg (mt (hcov j hj) h₂)]

/-- L7: after an insert in a field and one that begins no lower, the field reads the later value at its bits and its own elsewhere. -/
theorem getLsbD_extractField_insertField_insertField (hfit : off₂ + w₂ ≤ 64) (hle : off₂ ≤ off₁) (j : Nat) (hj : j < w₂) :
    (extractField (insertField (insertField cell off₂ w₂ v₂) off₁ w₁ v₁) off₂ w₂).getLsbD j =
      if off₁ - off₂ ≤ j ∧ j < off₁ - off₂ + w₁ then v₁.getLsbD (j - (off₁ - off₂)) else v₂.getLsbD j := by
  have h64 : off₂ + j < 64 := by omega
  have hin : (off₁ ≤ off₂ + j ∧ off₂ + j < off₁ + w₁) ↔ (off₁ - off₂ ≤ j ∧ j < off₁ - off₂ + w₁) := by omega
  have hbit : off₂ + j - off₁ = j - (off₁ - off₂) := by omega
  have hearlier : (insertField cell off₂ w₂ v₂).getLsbD (off₂ + j) = v₂.getLsbD j := by
    rw [getLsbD_insertField _ _ _ _ _ h64, if_pos (by omega), Nat.add_sub_cancel_left]
  rw [getLsbD_extractField, decide_eq_true hj, Bool.true_and, getLsbD_insertField _ _ _ _ _ h64, hearlier, hbit]
  exact if_congr hin rfl rfl

end TwoFields

/-- L3: the last write wins, as a field covers itself. -/
theorem insertField_insertField_self (cell : Word) (off w : Nat) (v v' : BitVec w) :
    insertField (insertField cell off w v) off w v' = insertField cell off w v' :=
  insertField_insertField_of_covered cell v v' ((fieldMask_covered_iff _ _ _ _).2 fun _ _ hin => hin)

/-! ## The statements -/

/-- Settles O17: the formula is the definition of Insert, and `getLsbD_insertField` reads it bit by bit. -/
theorem insertReplacesExactlyTheField : Obligations.InsertReplacesExactlyTheField :=
  fun cell off w v _ => ⟨rfl, getLsbD_insertField cell off w v⟩

/-- Settles O18: widened again, Extract has the bits of the masked value, so the narrowing drops only zeros. -/
theorem extractIsTheRightJustifiedField : Obligations.ExtractIsTheRightJustifiedField := by
  intro cell off w _
  refine ⟨rfl, BitVec.eq_of_getLsbD_eq fun j hj => ?_, BitVec.eq_of_getLsbD_eq fun j _ => ?_⟩
  · rw [BitVec.getLsbD_setWidth, getLsbD_extractField, BitVec.getLsbD_and, BitVec.getLsbD_ushiftRight, getLsbD_lowMask]
    simp [hj, Bool.and_comm]
  · rw [getLsbD_extractField, BitVec.getLsbD_extractLsb']

/-- Settles O19. -/
theorem fieldMaskHasOnesExactlyInTheField : Obligations.FieldMaskHasOnesExactlyInTheField :=
  ⟨fun off w j _ => getLsbD_fieldMask off w j, fun _ _ _ => rfl, by decide⟩

/-- Settles O20: the unit sees a word only under the mask. -/
theorem valueMaskOnlyDropsIgnoredBits : Obligations.ValueMaskOnlyDropsIgnoredBits := by
  intro off w _
  refine ⟨setWidth_and_lowMask, fun cell data => ?_⟩
  rw [insertField, insertWord, insertWord, setWidth_setWidth_and_lowMask]

/-- Settles O21: the laws in their order, then what the five fields are to each other. -/
theorem maskingUnitLaws : Obligations.MaskingUnitLaws := by
  refine ⟨fun cell off w v v' h => ?_, fun cell off₁ w₁ off₂ w₂ v₁ v₂ _ h₂ => ?_, fun i j => ?_, fun i j => ?_,
    exists_instr_field_iff, by decide⟩
  · exact ⟨extractField_insertField cell off w v h, insertField_and_not_fieldMask cell off w v,
      insertField_insertField_self cell off w v v', insertField_extractField cell off w⟩
  · exact ⟨fun hdisj => ⟨insertField_comm cell v₁ v₂ hdisj, extractField_insertField_of_disjoint cell v₁ h₂ hdisj⟩,
      insertField_insertField_of_covered cell v₁ v₂,
      fun hle _ => getLsbD_extractField_insertField_insertField cell v₁ v₂ h₂ hle⟩
  · exact instrFields_nested_or_disjoint (_, _) (field_mem_instrFields i) (_, _) (field_mem_instrFields j)
  · exact instrFields_disjoint_iff (_, _) (field_mem_instrFields i) (_, _) (field_mem_instrFields j)

/-- Settles O22: no bit of a cell is outside the field (0, 64). -/
theorem fullWidthInsertIsAnOverwrite : Obligations.FullWidthInsertIsAnOverwrite := by
  obtain ⟨-, -, hones, hclear, -⟩ := fieldMaskHasOnesExactlyInTheField
  refine ⟨hones, fun cell v => ⟨by rw [hclear, BitVec.and_zero], BitVec.eq_of_getLsbD_eq fun j hj => ?_⟩⟩
  rw [getLsbD_insertField _ _ _ _ _ hj, if_pos (by omega), Nat.sub_zero]

end Sys2Proof.Machine
end

section
/-! PROOFS. The family `41_get.md`. First what a get's word decodes to and what its instruction answers (R69, R70, R100), then how the
two bytes make the 16-bit field (R103) and what a command leaves of the other cells (R21), and last the statements O23, O30, O1 to O4
and O15 from these. -/

namespace Sys2Proof.Machine

open Claims

/-! ## The word and the answer of a get -/

/-- Extract is the slice of the cell (R92). -/
theorem extractField_eq_extractLsb' (cell : Word) (off w : Nat) : extractField cell off w = cell.extractLsb' off w := by
  refine BitVec.eq_of_getLsbD_eq fun j _ => ?_
  rw [getLsbD_extractField, BitVec.getLsbD_extractLsb']

/-- A word with a get's header decodes to the get, whatever the data field (R69). -/
theorem decode_make_of_get (k : Command) (hop : k.op = .get) (data : Word) :
    decode (CmdWord.make k.header data) = .ok k.instr := by
  have hread : k.data = k.operand data := by
    rw [← k.operand_data, k.operand_get _ hop, k.operand_get _ hop]
  rw [decode_eq_ok_iff, command_instr, header_make, data_make, Instr.value, command_instr]
  exact ⟨rfl, hread⟩

/-- The instruction of a get answers the view of its identifier at the width of its class (R74, R100). -/
theorem exec_instr_of_get (k : Command) (hop : k.op = .get) (s : State) :
    exec k.instr s = .next { s with rsp := ⟨true, false, (s.cells.readView k.view k.raw.width.bits).setWidth 64⟩ } := by
  rw [exec_eq_perform, command_instr, perform_get k s hop]

/-- The row of a get: the slice of the cell that its identifier's view names, widened with zeros. -/
theorem getRow_of_get (k : Command) (hop : k.op = .get) :
    GetRow k.header k.instr
      (fun x => ((x.read k.view.cell).extractLsb' k.view.off k.raw.width.bits).setWidth 64) := by
  refine ⟨decode_make_of_get k hop, fun s => ?_⟩
  rw [exec_instr_of_get k hop, Cells.readView, extractField_eq_extractLsb']

/-- The row of a get of the 64-bit class: the slice is the whole cell (R101). -/
theorem getRow_get64 (id : Id64) :
    GetRow (Command.get64 id).header (Command.get64 id).instr (fun x => x.read id.view.cell) := by
  have hrow := getRow_of_get (.get64 id) rfl
  simpa [Command.view, Command.raw, WidthClass.bits] using hrow

/-! ## The bytes of the 16-bit field -/

/-- A field is its high part followed by its low part. -/
theorem extractField_append (cell : Word) (off hi lo : Nat) :
    extractField cell (off + lo) hi ++ extractField cell off lo = extractField cell off (hi + lo) := by
  refine BitVec.eq_of_getLsbD_eq fun j hj => ?_
  rw [BitVec.getLsbD_append, getLsbD_extractField, getLsbD_extractField, getLsbD_extractField, decide_eq_true hj]
  by_cases hlo : j < lo
  · simp [hlo]
  · have hhi : j - lo < hi := by omega
    have hbit : off + lo + (j - lo) = off + j := by omega
    simp [hlo, hhi, hbit]

/-- Every identifier of the 16-bit class is bits 15:0 of its cell (R24). -/
theorem id16_view_eq (id : Id16) : id.view = ⟨id.view.cell, 0, 16⟩ := by
  cases id <;> rfl

/-- Bits 15:0 of a cell are its bits 15:8 followed by its bits 7:0. -/
theorem readView_bytes (x : Cells) (c : Role) :
    x.readView ⟨c, 8, 8⟩ 8 ++ x.readView ⟨c, 0, 8⟩ 8 = x.readView ⟨c, 0, 16⟩ 16 :=
  extractField_append (x.read c) 0 8 8

/-- The answer of an 8-bit get, by its view. -/
theorem exec_get8 (id : Id8) (v : View) (hv : id.view = v) (s : State) :
    exec (Command.get8 id).instr s = .next { s with rsp := ⟨true, false, (s.cells.readView v 8).setWidth 64⟩ } :=
  hv ▸ exec_instr_of_get (.get8 id) rfl s

/-- The answer of a 16-bit get is the two bytes of its cell. -/
theorem exec_get16 (id : Id16) (s : State) :
    exec (Command.get16 id).instr s = .next { s with rsp := ⟨true, false,
      (s.cells.readView ⟨id.view.cell, 8, 8⟩ 8 ++ s.cells.readView ⟨id.view.cell, 0, 8⟩ 8).setWidth 64⟩ } := by
  rw [readView_bytes, ← id16_view_eq]
  exact exec_instr_of_get (.get16 id) rfl s

/-! ## The other cells -/

/-- A command leaves every cell but its own as it is (R21). -/
theorem read_applyTyped_other (k : Command) (x : Cells) (c : Role) (hc : c ≠ k.view.cell) :
    (applyTyped k x).1.read c = x.read c := by
  rcases applyTyped_cells k x with ⟨-, hx⟩ | ⟨-, hx, -⟩
  · rw [hx]
  · rw [hx, Cells.writeView, read_write_other _ _ _ _ hc]

/-- A view of another cell reads the same after a command (R21, R49). -/
theorem readView_perform_other (k : Command) (s : State) (v : View) (w : Nat) (hc : v.cell ≠ k.view.cell) :
    (perform k s).cells.readView v w = s.cells.readView v w := by
  rw [Cells.readView, perform_cells, read_applyTyped_other k s.cells v.cell hc, Cells.readView]

/-! ## The statements -/

/-- Settles O23: the answer is a function of the get's own cell, which neither the get nor a set of another cell changes. -/
theorem getsNeverChangeState : Obligations.GetsNeverChangeState := by
  intro i s hop
  refine ⟨(s.cells.readView i.view i.view.width).setWidth 64, exec_get i s hop, exec_get i _ hop, fun j _ hcell => ?_⟩
  refine ⟨perform j.command s, exec_eq_perform j s, ?_⟩
  rw [exec_get i _ hop, readView_perform_other j.command s i.view _ hcell.symm]

/-- Settles O30: each triple and each pair names the bytes of one cell, and the 16-bit get answers these two bytes. -/
theorem sixteenBitGetIsHighByteThenLowByte : Obligations.SixteenBitGetIsHighByteThenLowByte := by
  intro s
  constructor
  · intro p hp
    have hviews : ∀ q ∈ [(Id16.ax, Id8.ah, Id8.al), (Id16.bx, Id8.bh, Id8.bl), (Id16.cx, Id8.ch, Id8.cl), (Id16.dx, Id8.dh, Id8.dl)],
        q.2.1.view = ⟨q.1.view.cell, 8, 8⟩ ∧ q.2.2.view = ⟨q.1.view.cell, 0, 8⟩ := by decide
    obtain ⟨hhigh, hlow⟩ := hviews p hp
    exact ⟨_, _, exec_get8 _ _ hhigh s, exec_get8 _ _ hlow s, exec_get16 _ s⟩
  · intro p hp
    have hviews : ∀ q ∈ [(Id16.sp, Id8.spl), (Id16.bp, Id8.bpl), (Id16.di, Id8.dil), (Id16.si, Id8.sil)],
        q.2.view = ⟨q.1.view.cell, 8, 8⟩ := by decide
    exact ⟨_, _, exec_get8 _ _ (hviews p hp) s, exec_get16 _ s, BitVec.extractLsb'_append_eq_left⟩

/-- Settles O1: the rows of the 64-bit class. -/
theorem get64ReturnsItsBits : Obligations.Get64ReturnsItsBits :=
  ⟨getRow_get64 .rax, getRow_get64 .rbx, getRow_get64 .rcx, getRow_get64 .rsp, getRow_get64 .rbp, getRow_get64 .rdi,
    getRow_get64 .rsi, getRow_get64 .rdx⟩

/-- Settles O2: the rows of the 32-bit class. -/
theorem get32ReturnsItsBits : Obligations.Get32ReturnsItsBits :=
  ⟨getRow_of_get (.get32 .eax) rfl, getRow_of_get (.get32 .ebx) rfl, getRow_of_get (.get32 .ecx) rfl,
    getRow_of_get (.get32 .esp) rfl, getRow_of_get (.get32 .ebp) rfl, getRow_of_get (.get32 .edi) rfl,
    getRow_of_get (.get32 .esi) rfl, getRow_of_get (.get32 .edx) rfl⟩

/-- Settles O3: the rows of the 16-bit class. -/
theorem get16ReturnsItsBits : Obligations.Get16ReturnsItsBits :=
  ⟨getRow_of_get (.get16 .ax) rfl, getRow_of_get (.get16 .bx) rfl, getRow_of_get (.get16 .cx) rfl,
    getRow_of_get (.get16 .sp) rfl, getRow_of_get (.get16 .bp) rfl, getRow_of_get (.get16 .di) rfl,
    getRow_of_get (.get16 .si) rfl, getRow_of_get (.get16 .dx) rfl⟩

/-- Settles O4: the rows of the 8-bit class, each with the offset of its view. -/
theorem get8ReturnsItsBits : Obligations.Get8ReturnsItsBits :=
  ⟨getRow_of_get (.get8 .al) rfl, getRow_of_get (.get8 .bl) rfl, getRow_of_get (.get8 .cl) rfl, getRow_of_get (.get8 .dl) rfl,
    getRow_of_get (.get8 .ah) rfl, getRow_of_get (.get8 .bh) rfl, getRow_of_get (.get8 .ch) rfl, getRow_of_get (.get8 .spl) rfl,
    getRow_of_get (.get8 .bpl) rfl, getRow_of_get (.get8 .dil) rfl, getRow_of_get (.get8 .sil) rfl, getRow_of_get (.get8 .dh) rfl⟩

/-- The canonical word of a command decodes to the command's instruction (R71). -/
theorem decode_of_encodeCommand_eq (k : Command) {cw : CmdWord} (h : encodeCommand k = cw) : decode cw = .ok k.instr := by
  rw [← h, decode_encodeCommand]

/-- Settles O15: ten words are canonical, and of the data field `0xFF00` of the last one `set8` reads only the low byte (R68). -/
theorem workedExampleWordsDecode : Obligations.WorkedExampleWordsDecode := by
  have hlast : decode 0x48000000000000FF00#71 = .ok (.set8AH 0x00#8) := (decode_eq_ok_iff _ _).2 ⟨rfl, rfl⟩
  exact ⟨decode_of_encodeCommand_eq (.get64 .rax) rfl, decode_of_encodeCommand_eq (.get32 .eax) rfl,
    decode_of_encodeCommand_eq (.get16 .ax) rfl, decode_of_encodeCommand_eq (.get8 .al) rfl,
    decode_of_encodeCommand_eq (.get8 .ah) rfl, decode_of_encodeCommand_eq (.set64 .rax 0x1122334455667788#64) rfl,
    decode_of_encodeCommand_eq (.set32 .eax 0xFFFFFFFF#32) rfl, decode_of_encodeCommand_eq (.set16 .ax 0xAAAA#16) rfl,
    decode_of_encodeCommand_eq (.set8 .al 0xFF#8) rfl, decode_of_encodeCommand_eq (.set8 .ah 0xFF#8) rfl, hlast⟩

end Sys2Proof.Machine
end

section
/-! PROOFS. The family `42_set.md`. First the bits a set writes, said as a concatenation (R111 to R114), then the set and the get of an
identifier of any class and the row of a set (R68, R110), what a later set hides and what a get on a separate view does not see (R116 to
R118), and last the statements O24, O25, O26, O28 and O5 to O8 from these. -/

namespace Sys2Proof

/-! ## The operations on an identifier of any class -/

/-- The set of an identifier, with a value of its class's width (R60). -/
def Command.setOf : (id : AnyId) → BitVec id.widthClass.bits → Command
  | .id64 i, v => .set64 i v
  | .id32 i, v => .set32 i v
  | .id16 i, v => .set16 i v
  | .id8 i, v => .set8 i v

/-- The get of an identifier (R60). -/
def Command.getOf : AnyId → Command
  | .id64 i => .get64 i
  | .id32 i => .get32 i
  | .id16 i => .get16 i
  | .id8 i => .get8 i

section
variable (id : AnyId) (v : BitVec id.widthClass.bits)

@[simp] theorem Command.op_setOf : (Command.setOf id v).op = .set := by cases id <;> rfl
@[simp] theorem Command.ident_setOf : (Command.setOf id v).raw.ident = id := by cases id <;> rfl
@[simp] theorem Command.op_getOf : (Command.getOf id).op = .get := by cases id <;> rfl
@[simp] theorem Command.ident_getOf : (Command.getOf id).raw.ident = id := by cases id <;> rfl

/-- The canonical data field of a set is its value, widened with zeros (R71). -/
@[simp] theorem Command.data_setOf : (Command.setOf id v).data = v.setWidth 64 := by
  cases id with
  | id64 i => exact (BitVec.setWidth_eq v).symm
  | id32 i | id16 i | id8 i => rfl

end

/-! ## Views within views -/

/-- A view lies within another: the same cell, and no bit outside the other's range. -/
def View.Within (u v : View) : Prop :=
  u.cell = v.cell ∧ v.off ≤ u.off ∧ u.off + u.width ≤ v.off + v.width

/-- The wider view covers every bit that the view within it covers. -/
theorem View.Within.covers {u v : View} (h : u.Within v) {c : Role} {j : Nat} (hu : u.cell = c ∧ u.covers j = true) :
    v.cell = c ∧ v.covers j = true := by
  obtain ⟨hcell, hlo, hhi⟩ := h
  obtain ⟨huc, huj⟩ := hu
  rw [covers_iff] at huj
  exact ⟨hcell ▸ huc, (covers_iff v j).2 (by omega)⟩

/-- The high-byte and the low-byte identifier of an A-class cell have separate views (R117). -/
theorem separate_highByte_lowByte : ∀ p ∈ [(Id8.ah, Id8.al), (Id8.bh, Id8.bl), (Id8.ch, Id8.cl), (Id8.dh, Id8.dl)],
    p.1.view.Separate p.2.view := by
  simp [Id8.view, View.Separate]

/-- Being separate does not depend on the order of the views. -/
theorem View.Separate.symm {u v : View} (h : u.Separate v) : v.Separate u := by
  rcases h with hcell | hlow | hhigh
  · exact .inl (Ne.symm hcell)
  · exact .inr (.inr hlow)
  · exact .inr (.inl hhigh)

end Sys2Proof

namespace Sys2Proof.Machine

open Claims

/-! ## Insert as a concatenation (R111 to R114) -/

/-- Insert keeps the `hi` bits above the field and the `lo` bits below it, around the value. -/
theorem insertField_eq_append {hi w lo : Nat} (cell : Word) (v : BitVec w) (h : hi + w + lo = 64) :
    insertField cell lo w v = (cell.extractLsb' (lo + w) hi ++ v ++ cell.extractLsb' 0 lo).cast h := by
  refine BitVec.eq_of_getLsbD_eq fun j hj => ?_
  rw [getLsbD_insertField _ _ _ _ _ hj, BitVec.getLsbD_cast, BitVec.getLsbD_append, BitVec.getLsbD_append]
  by_cases hlo : j < lo
  · simp [hlo, Nat.not_le.2 hlo]
  · by_cases hw : j < lo + w
    · have hin : j - lo < w := by omega
      simp [hlo, hw, hin, Nat.not_lt.1 hlo]
    · have hout : ¬ j - lo < w := by omega
      have hhi : j - lo - w < hi := by omega
      have hbit : lo + w + (j - lo - w) = j := by omega
      simp [hlo, hw, hout, hhi, hbit]

/-- The same of a field that begins at bit 0: nothing is below it. -/
theorem insertField_zero_eq_append {hi w : Nat} (cell : Word) (v : BitVec w) (h : hi + w = 64) :
    insertField cell 0 w v = (cell.extractLsb' w hi ++ v).cast h := by
  rw [insertField_eq_append cell v h]
  refine BitVec.eq_of_getLsbD_eq fun j _ => ?_
  simp [BitVec.getLsbD_append]

/-! ## The row of a set (R68, R110) -/

/-- The instruction of a typed command performs it (R61, R73). -/
theorem exec_instr (k : Command) (s : State) : exec k.instr s = .next (perform k s) := by
  rw [exec_eq_perform, command_instr]

section
variable (id : AnyId) (v : BitVec id.widthClass.bits)

/-- A set writes its value into the view of its identifier and is done (R74, R110). -/
theorem perform_setOf (s : State) :
    perform (Command.setOf id v) s =
      { s with cells := s.cells.writeView id.view id.widthClass.bits v, rsp := Response.done } := by
  cases id <;> rfl

/-- A get answers the view of its identifier, widened with zeros (R74, R100). -/
theorem perform_getOf (s : State) :
    perform (Command.getOf id) s =
      { s with rsp := ⟨true, false, (s.cells.readView id.view id.widthClass.bits).setWidth 64⟩ } := by
  rw [perform_get _ s (Command.op_getOf id), Command.view_eq, Command.width_eq, Command.ident_getOf]

/-- A word with a set's header decodes to the set of the low data bits (R68). -/
theorem decode_make_of_setOf (data : Word) :
    decode (CmdWord.make (Header.make .set id.widthClass id.code) data) =
      .ok (Command.setOf id (data.setWidth id.widthClass.bits)).instr := by
  rw [decode_eq_ok_iff, command_instr, header_make, data_make, Instr.value, command_instr, Command.header_eq,
    Command.operand_set _ _ (Command.op_setOf id _), Command.width_eq, Command.op_setOf, Command.ident_setOf,
    Command.data_setOf]
  exact ⟨rfl, rfl⟩

end

/-- The row of a set: the cell of its view becomes what Insert makes of it. -/
theorem setRow_setOf (id : AnyId) (after : Word → BitVec id.widthClass.bits → Word)
    (hafter : ∀ cell v, insertField cell id.view.off id.widthClass.bits v = after cell v) :
    SetRow id.widthClass.bits (Header.make .set id.widthClass id.code) (fun v => (Command.setOf id v).instr)
      (fun x v => x.write id.view.cell (after (x.read id.view.cell) v)) := by
  refine ⟨decode_make_of_setOf id, fun v s => ?_⟩
  rw [exec_instr, perform_setOf, Cells.writeView, hafter]
  rfl

/-- The row of a set of the 64-bit class: the old value of the cell has no influence (R111). -/
theorem setRow_set64 (id : Id64) :
    SetRow 64 (Header.make .set .w64 id.code) (fun v => (Command.set64 id v).instr) (fun x v => x.write id.view.cell v) := by
  obtain ⟨-, hoverwrite⟩ := fullWidthInsertIsAnOverwrite
  refine setRow_setOf (.id64 id) (fun _ v => v) fun cell v => ?_
  rw [AnyId.view, id.view_off]
  exact (hoverwrite cell v).2

/-- The row of a set of the 32-bit class: bits 63:32 stay (R112). -/
theorem setRow_set32 (id : Id32) :
    SetRow 32 (Header.make .set .w32 id.code) (fun v => (Command.set32 id v).instr)
      (fun x v => x.write id.view.cell ((x.read id.view.cell).extractLsb' 32 32 ++ v)) := by
  refine setRow_setOf (.id32 id) (fun cell v => cell.extractLsb' 32 32 ++ v) fun cell v => ?_
  rw [AnyId.view, id.view_off]
  exact insertField_zero_eq_append cell v rfl

/-- The row of a set of the 16-bit class: bits 63:16 stay (R113). -/
theorem setRow_set16 (id : Id16) :
    SetRow 16 (Header.make .set .w16 id.code) (fun v => (Command.set16 id v).instr)
      (fun x v => x.write id.view.cell ((x.read id.view.cell).extractLsb' 16 48 ++ v)) := by
  refine setRow_setOf (.id16 id) (fun cell v => cell.extractLsb' 16 48 ++ v) fun cell v => ?_
  rw [AnyId.view, id.view_off]
  exact insertField_zero_eq_append cell v rfl

/-- The row of a set of a low byte: bits 63:8 stay (R114). -/
theorem setRow_set8_lowByte (id : Id8) (hoff : id.view.off = 0) :
    SetRow 8 (Header.make .set .w8 id.code) (fun v => (Command.set8 id v).instr)
      (fun x v => x.write id.view.cell ((x.read id.view.cell).extractLsb' 8 56 ++ v)) := by
  refine setRow_setOf (.id8 id) (fun cell v => cell.extractLsb' 8 56 ++ v) fun cell v => ?_
  rw [AnyId.view, hoff]
  exact insertField_zero_eq_append cell v rfl

/-- The row of a set of a high byte: bits 63:16 and 7:0 stay (R114). -/
theorem setRow_set8_highByte (id : Id8) (hoff : id.view.off = 8) :
    SetRow 8 (Header.make .set .w8 id.code) (fun v => (Command.set8 id v).instr)
      (fun x v => x.write id.view.cell
        ((x.read id.view.cell).extractLsb' 16 48 ++ v ++ (x.read id.view.cell).extractLsb' 0 8)) := by
  refine setRow_setOf (.id8 id) (fun cell v => cell.extractLsb' 16 48 ++ v ++ cell.extractLsb' 0 8) fun cell v => ?_
  rw [AnyId.view, hoff]
  exact insertField_eq_append cell v rfl

/-! ## A set and what comes after it -/

/-- The view of a command fits in a cell (R97). -/
theorem commandView_fits (k : Command) : k.view.off + k.view.width ≤ 64 := by
  simpa [Instr.view] using (view_fits k.instr).2

/-- The view of an identifier, at the width of its class, fits in a cell (R97). -/
theorem identView_fits (id : AnyId) : id.view.off + id.widthClass.bits ≤ 64 := by
  have hfit := commandView_fits (Command.getOf id)
  rwa [Command.view_width, Command.view_eq, Command.width_eq, Command.ident_getOf] at hfit

/-- A view reads back what was written into it, if it fits in a cell (L1). -/
theorem readView_writeView_self (x : Cells) (view : View) (w : Nat) (v : BitVec w) (hfit : view.off + w ≤ 64) :
    (x.writeView view w v).readView view w = v := by
  rw [Cells.readView, Cells.writeView, read_write_self, extractField_insertField _ _ _ _ hfit]

/-- A get after the set of the same identifier answers the value, widened with zeros (R115). -/
theorem exec_getOf_of_setOf (id : AnyId) (v : BitVec id.widthClass.bits) (s : State) {d : Word} (hd : v.setWidth 64 = d) :
    ∃ t, exec (Command.setOf id v).instr s = .next t ∧
      exec (Command.getOf id).instr t = .next { t with rsp := ⟨true, false, d⟩ } := by
  refine ⟨_, exec_instr _ s, ?_⟩
  rw [exec_instr, perform_getOf, perform_setOf,
    readView_writeView_self _ _ _ _ (identView_fits id), hd]

/-- A view separate from a command's own reads the same after it: no bit it reads is written (R116, R117). -/
theorem readView_perform_of_separate (k : Command) (s : State) (view : View) (h : k.view.Separate view)
    (hfit : view.off + view.width ≤ 64) :
    (perform k s).cells.readView view view.width = s.cells.readView view view.width := by
  refine BitVec.eq_of_getLsbD_eq fun j hj => ?_
  have hread : view.cell = view.cell ∧ view.covers (view.off + j) = true := ⟨rfl, (covers_iff _ _).2 (by omega)⟩
  have hwritten : ¬ (k.op = .set ∧ k.view.cell = view.cell ∧ k.view.covers (view.off + j) = true) :=
    fun ⟨_, hk⟩ => h.not_covers_both hk hread
  rw [Cells.readView, Cells.readView, getLsbD_extractField, getLsbD_extractField, perform_cells,
    getLsbD_applyTyped _ _ _ _ (by omega), if_neg hwritten]

/-- A get on a view separate from that of a set answers the same before and after the set (R117). -/
theorem exec_get_of_separate_set (k l : Command) (s : State) (hl : l.op = .get) (h : k.view.Separate l.view) :
    ∃ r, exec l.instr s = .next { s with rsp := r } ∧ exec l.instr (perform k s) = .next { perform k s with rsp := r } := by
  refine ⟨_, exec_instr_of_get l hl s, ?_⟩
  rw [exec_instr_of_get l hl, ← l.view_width, readView_perform_of_separate k s l.view h (commandView_fits l)]

/-- A set hides a set within its view: of the bits that either writes, it writes all (R47, R118). -/
theorem perform_perform_of_within (k l : Command) (s : State) (hk : k.op = .set) (hl : l.op = .set)
    (h : k.view.Within l.view) :
    perform l (perform k s) = perform l s := by
  have hcells : (applyTyped l (applyTyped k s.cells).1).1 = (applyTyped l s.cells).1 := by
    refine cells_eq_of_bits _ _ fun c j hj => ?_
    simp only [getLsbD_applyTyped _ _ _ _ hj, hk, hl, true_and]
    by_cases hlater : l.view.cell = c ∧ l.view.covers j = true
    · rw [if_pos hlater, if_pos hlater]
    · rw [if_neg hlater, if_neg hlater, if_neg (mt h.covers hlater)]
  rw [perform_set l _ hl, perform_set l s hl, perform_cells, hcells, perform_set k s hk]

/-! ## The statements -/

/-- Settles O24: the four classes of `exec_getOf_of_setOf`. -/
theorem setThenGetReturnsTheValue : Obligations.SetThenGetReturnsTheValue := by
  intro s
  exact ⟨fun id v => exec_getOf_of_setOf (.id64 id) v s (BitVec.setWidth_eq v),
    fun id v => exec_getOf_of_setOf (.id32 id) v s rfl, fun id v => exec_getOf_of_setOf (.id16 id) v s rfl,
    fun id v => exec_getOf_of_setOf (.id8 id) v s rfl⟩

/-- Settles O25: L2 of the masking unit for the set's own cell, and no write for the others. -/
theorem setChangesNoBitOutsideItsView : Obligations.SetChangesNoBitOutsideItsView := by
  intro i s hop
  refine ⟨_, exec_eq_perform i s, ?_, fun k hk => read_applyTyped_other i.command s.cells k hk⟩
  rw [perform_cells, applyTyped_set_cells i.command s.cells hop, Cells.writeView, ← i.command.view_width]
  rw [show i.command.view = i.view from rfl, read_write_self, insertField_and_not_fieldMask]

/-- Settles O26: the two views are separate, so neither get sees the other's set, and the sets commute. -/
theorem highAndLowBytesAreIndependent : Obligations.HighAndLowBytesAreIndependent := by
  intro p hp s v w
  have hsep : p.1.view.Separate p.2.view := separate_highByte_lowByte p hp
  obtain ⟨rl, hlow, hlow'⟩ := exec_get_of_separate_set (.set8 p.1 v) (.get8 p.2) s rfl hsep
  obtain ⟨rh, hhigh, hhigh'⟩ := exec_get_of_separate_set (.set8 p.2 w) (.get8 p.1) s rfl hsep.symm
  have hcomm := perform_comm_of_set (.set8 p.1 v) (.set8 p.2 w) s rfl rfl hsep
  exact ⟨rh, rl, _, _, _, hhigh, hlow, exec_instr (.set8 p.1 v) s, hlow', exec_instr (.set8 p.2 w) s, hhigh',
    exec_instr (.set8 p.2 w) _, by rw [exec_instr, hcomm]⟩

/-- Settles O28. -/
theorem coveringSetHidesAnEarlierSet : Obligations.CoveringSetHidesAnEarlierSet := by
  intro a b s ha hb hcell hlo hhi
  refine ⟨_, _, exec_eq_perform a s, exec_eq_perform b _, ?_⟩
  rw [exec_eq_perform, perform_perform_of_within a.command b.command s ha hb ⟨hcell, hlo, hhi⟩]

/-- Settles O5: the rows of the 64-bit class. -/
theorem set64WritesItsBits : Obligations.Set64WritesItsBits :=
  ⟨setRow_set64 .rax, setRow_set64 .rbx, setRow_set64 .rcx, setRow_set64 .rsp, setRow_set64 .rbp, setRow_set64 .rdi,
    setRow_set64 .rsi, setRow_set64 .rdx⟩

/-- Settles O6: the rows of the 32-bit class. -/
theorem set32WritesItsBits : Obligations.Set32WritesItsBits :=
  ⟨setRow_set32 .eax, setRow_set32 .ebx, setRow_set32 .ecx, setRow_set32 .esp, setRow_set32 .ebp, setRow_set32 .edi,
    setRow_set32 .esi, setRow_set32 .edx⟩

/-- Settles O7: the rows of the 16-bit class. -/
theorem set16WritesItsBits : Obligations.Set16WritesItsBits :=
  ⟨setRow_set16 .ax, setRow_set16 .bx, setRow_set16 .cx, setRow_set16 .sp, setRow_set16 .bp, setRow_set16 .di,
    setRow_set16 .si, setRow_set16 .dx⟩

/-- Settles O8: the rows of the four low bytes, then of the eight high bytes. -/
theorem set8WritesItsBits : Obligations.Set8WritesItsBits :=
  ⟨setRow_set8_lowByte .al rfl, setRow_set8_lowByte .bl rfl, setRow_set8_lowByte .cl rfl, setRow_set8_lowByte .dl rfl,
    setRow_set8_highByte .ah rfl, setRow_set8_highByte .bh rfl, setRow_set8_highByte .ch rfl, setRow_set8_highByte .spl rfl,
    setRow_set8_highByte .bpl rfl, setRow_set8_highByte .dil rfl, setRow_set8_highByte .sil rfl, setRow_set8_highByte .dh rfl⟩

end Sys2Proof.Machine
end

section
/-! PROOFS. The family `60_exceptions.md`. First what one cycle makes of a state, as a function of the input taken (R131, R134),
then runs as the fold of it with their responses in order (R154), and last the statements O43, O45, O36, O37, O38 and O32 from these. -/

namespace Sys2Proof.Machine

open Claims

/-! ## One cycle as a function of its input -/

/-- The state after a cycle in which the engine drives `p`; what it drives after that is not touched. The wired block says what the
cycle does, because its next state is a function (R134, O40). -/
def State.afterInput (s : State) (p : PortIn) : State := Datapath.nextState { s with inputs := p :: s.inputs }

/-- The step takes the first input. -/
theorem step_input (s : State) (p : PortIn) (rest : List PortIn) :
    step { s with inputs := p :: rest } = .next { s.afterInput p with inputs := rest } :=
  wiredDatapathIsTheStep _

/-- The last response is no state of the hardware: a cycle does not read it (R36). -/
theorem afterInput_with_rsp (s : State) (r : Response) (p : PortIn) : { s with rsp := r }.afterInput p = s.afterInput p := rfl

/-- A presented reserved word is `IllegalCommand` (R131). -/
theorem afterInput_of_reserved (s : State) (cw : CmdWord) (h : cw.header.reserved = true) :
    s.afterInput (PortIn.present cw) = takeIllegalCommand cw.header s :=
  Datapath.nextState_of_reserved (s.presentNext cw) rfl rfl h

/-- A presented get changes nothing but the last response (R105). -/
theorem afterInput_of_isGet (s : State) (g : PortIn) (hg : g.isGet = true) : ∃ r, s.afterInput g = { s with rsp := r } := by
  unfold PortIn.isGet at hg
  cases hdec : decode g.cmd with
  | error e => simp [hdec] at hg
  | ok i =>
    obtain ⟨⟨hrst, hvalid⟩, hop⟩ : (g.rst = false ∧ g.cmdValid = true) ∧ i.op = .get := by simpa [hdec] using hg
    have hperform : s.afterInput g = perform i.command s := Datapath.nextState_of_decode_ok _ i hrst hvalid hdec
    exact ⟨_, hperform.trans (perform_get i.command s hop)⟩

/-- The wired block refuses the presented reserved headers (R131, R134). -/
theorem refuse_iff (p : PortIn) :
    Datapath.refuse p = true ↔ p.rst = false ∧ p.cmdValid = true ∧ p.cmd.header.reserved = true := by
  simp [Datapath.refuse, and_assoc]

/-- The safe inputs are those that are not refused (R137). -/
theorem safe_eq_not_refuse (p : PortIn) : p.safe = !Datapath.refuse p := by
  simp [PortIn.safe, Datapath.refuse]

/-- A cycle adds to the record what the wired block adds. -/
theorem afterInput_faults_eq_nextFaults (s : State) (p : PortIn) : (s.afterInput p).faults = Datapath.nextFaults p s.faults := rfl

/-- A cycle appends the faults of its input to the record (R137). -/
theorem afterInput_faults (s : State) (p : PortIn) : (s.afterInput p).faults = s.faults ++ p.faults := by
  rw [afterInput_faults_eq_nextFaults, Datapath.nextFaults, PortIn.faults, safe_eq_not_refuse]
  cases Datapath.refuse p with
  | true => rfl
  | false => exact (List.append_nil _).symm

/-- A typed command is never answered with an error (R130). -/
@[simp] theorem perform_rsp_err (k : Command) (s : State) : (perform k s).rsp.err = false := by
  cases hop : k.op with
  | get => rw [perform_get k s hop]
  | set => rw [perform_set k s hop]; rfl

/-! ## Runs as folds (R154) -/

/-- The state after a cycle for each of the inputs, in order. -/
def State.afterInputs (s : State) (ps : List PortIn) : State := ps.foldl State.afterInput s

@[simp] theorem afterInputs_cons (s : State) (p : PortIn) (ps : List PortIn) :
    s.afterInputs (p :: ps) = (s.afterInput p).afterInputs ps := rfl

/-- A run over two lists is a run over the first, and then one over the second. -/
theorem afterInputs_append (s : State) (ps qs : List PortIn) : s.afterInputs (ps ++ qs) = (s.afterInputs ps).afterInputs qs :=
  List.foldl_append

/-- A run answers a next state: the fold of the cycles, with no input left. -/
theorem runInputs_eq (s : State) (ps : List PortIn) :
    runInputs { s with inputs := ps } = .next { s.afterInputs ps with inputs := [] } := by
  induction ps generalizing s with
  | nil => exact runInputs_nil _ rfl
  | cons p ps ih => exact (runInputs_cons _ _ p ps rfl rfl (step_input s p ps)).trans (ih (s.afterInput p))

/-- The last response before a run can be seen only in the last response after it, where no input is taken. -/
theorem afterInputs_with_rsp (s : State) (r : Response) (ps : List PortIn) :
    ∃ r', { s with rsp := r }.afterInputs ps = { s.afterInputs ps with rsp := r' } := by
  cases ps with
  | nil => exact ⟨r, rfl⟩
  | cons p ps => exact ⟨((s.afterInput p).afterInputs ps).rsp, by rw [afterInputs_cons, afterInput_with_rsp]; rfl⟩

/-- A get anywhere in a run can be seen only in the last response, where no input is taken after it (R144). -/
theorem afterInputs_of_isGet (s : State) (ps qs : List PortIn) (g : PortIn) (hg : g.isGet = true) :
    ∃ r, s.afterInputs (ps ++ g :: qs) = { s.afterInputs (ps ++ qs) with rsp := r } := by
  obtain ⟨r, hget⟩ := afterInput_of_isGet (s.afterInputs ps) g hg
  rw [afterInputs_append, afterInputs_cons, hget, afterInputs_append]
  exact afterInputs_with_rsp (s.afterInputs ps) r qs

/-- A run appends the faults of its inputs to the record, in their order (R137). -/
theorem afterInputs_faults (s : State) (ps : List PortIn) : (s.afterInputs ps).faults = s.faults ++ ps.flatMap PortIn.faults := by
  induction ps generalizing s with
  | nil => exact (List.append_nil _).symm
  | cons p ps ih => rw [afterInputs_cons, ih, afterInput_faults, List.flatMap_cons, List.append_assoc]

/-- The faults of a list of inputs are those of the inputs that are not safe. -/
theorem flatMap_faults (ps : List PortIn) :
    ps.flatMap PortIn.faults = (ps.filter fun p => !p.safe).map fun p => Fault.illegalCommand p.cmd.header := by
  induction ps with
  | nil => rfl
  | cons p ps ih =>
    rw [List.flatMap_cons, ih]
    cases hsafe : p.safe <;> simp [PortIn.faults, hsafe]

/-! ## The responses along a run -/

/-- The first response is that of the first input's cycle. -/
theorem responsesOf_cons (s : State) (p : PortIn) (ps : List PortIn) :
    responsesOf (p :: ps).length { s with inputs := p :: ps } =
      (s.afterInput p).rsp :: responsesOf ps.length { s.afterInput p with inputs := ps } := by
  rw [List.length_cons, responsesOf, step_input]

/-- The responses of a run do not depend on the response before it (R36). -/
theorem responsesOf_with_rsp (s : State) (r : Response) (ps : List PortIn) :
    responsesOf ps.length { s with inputs := ps, rsp := r } = responsesOf ps.length { s with inputs := ps } := by
  cases ps with
  | nil => rfl
  | cons p ps => rw [responsesOf_cons { s with rsp := r }, afterInput_with_rsp, responsesOf_cons]

/-- A get adds its own response to those of the inputs after it, and nothing else. -/
theorem responsesOf_of_isGet (s : State) (g : PortIn) (qs : List PortIn) (hg : g.isGet = true) :
    ∃ r, responsesOf (g :: qs).length { s with inputs := g :: qs } = r :: responsesOf qs.length { s with inputs := qs } := by
  obtain ⟨r, hget⟩ := afterInput_of_isGet s g hg
  rw [responsesOf_cons, hget]
  exact ⟨r, congrArg (r :: ·) (responsesOf_with_rsp s r qs)⟩

/-- Every input has one response (R74). -/
theorem length_responsesOf (s : State) (ps : List PortIn) :
    (responsesOf ps.length { s with inputs := ps }).length = ps.length := by
  induction ps generalizing s with
  | nil => rfl
  | cons p ps ih => rw [responsesOf_cons, List.length_cons, ih, List.length_cons]

/-- The responses of a run over two lists are those of the first, and then those of the second from where the first ends. -/
theorem responsesOf_append (s : State) (ps qs : List PortIn) :
    responsesOf (ps ++ qs).length { s with inputs := ps ++ qs } =
      responsesOf ps.length { s with inputs := ps } ++ responsesOf qs.length { s.afterInputs ps with inputs := qs } := by
  induction ps generalizing s with
  | nil => rfl
  | cons p ps ih => rw [List.cons_append, responsesOf_cons, responsesOf_cons, ih, List.cons_append, afterInputs_cons]

/-! ## The statements -/

/-- Settles O43: the get leaves the state it meets but for the last response, which no later cycle reads. -/
theorem inspectorGetIsInvisible : Obligations.InspectorGetIsInvisible := by
  intro s ps qs g hg
  obtain ⟨r, hget⟩ := afterInputs_of_isGet s ps qs g hg
  obtain ⟨r', hrsp⟩ := responsesOf_of_isGet (s.afterInputs ps) g qs hg
  refine ⟨_, _, runInputs_eq s _, runInputs_eq s _, by rw [hget], by rw [hget], ?_⟩
  rw [responsesOf_append, responsesOf_append, hrsp, List.eraseIdx_append_of_length_le (length_responsesOf s ps).le,
    length_responsesOf, Nat.sub_self, List.eraseIdx_cons_zero]

/-- Settles O45: the record grows by the faults of the inputs, and of these there is none exactly if every input is safe. -/
theorem runRecordsExactlyTheReservedWords : Obligations.RunRecordsExactlyTheReservedWords := by
  intro s
  have hfaults := afterInputs_faults s s.inputs
  rw [flatMap_faults] at hfaults
  refine ⟨_, runInputs_eq s s.inputs, hfaults, fun hfree => ?_⟩
  have hnone : s.faults = [] := List.isEmpty_iff.1 hfree
  simp [State.faultFree, State.safeInputs, hfaults, hnone]

/-- Settles O36: the run over the list and the word is the run over the list, and then `IllegalCommand`. -/
theorem illegalCommandChangesNoCell : Obligations.IllegalCommandChangesNoCell := by
  intro s ps cw hmem
  have hend : s.afterInputs (ps ++ [PortIn.present cw]) = takeIllegalCommand cw.header (s.afterInputs ps) := by
    rw [afterInputs_append]
    exact afterInput_of_reserved _ cw ((mem_reservedList_iff cw.header).1 hmem)
  exact ⟨_, _, runInputs_eq s ps, runInputs_eq s _, by rw [hend, takeIllegalCommand_cells],
    by rw [hend, takeIllegalCommand_rsp]⟩

/-- Settles O37: the step records a fault exactly where the wired block refuses the input. -/
theorem faultIsRecordedExactlyForAPresentedReservedWord :
    Obligations.FaultIsRecordedExactlyForAPresentedReservedWord := by
  intro s p rest hin
  have hstep : step s = .next { s.afterInput p with inputs := rest } := by rw [← step_input, ← hin]
  refine ⟨_, hstep, (afterInput_faults_eq_nextFaults s p).trans ?_⟩
  simp only [Datapath.nextFaults, refuse_iff, mem_reservedList_iff]

/-- Settles O38: the reserved word leaves the cells that the legal word's command reads. -/
theorem faultIsNotSticky : Obligations.FaultIsNotSticky := by
  intro s bad good i rest hmem hdec hin
  have hbad := step_of_reserved hin ((mem_reservedList_iff bad.header).1 hmem)
  have hrest : (takeIllegalCommand bad.header s.afterPortIn).inputs = PortIn.present good :: rest := by
    rw [takeIllegalCommand_inputs, afterPortIn_inputs, hin, List.tail_cons]
  refine ⟨_, _, _, hbad, step_of_legal hrest hdec, step_of_legal rfl hdec, rfl, rfl, perform_rsp_err _ _, ?_⟩
  rw [perform_inputs, perform_inputs, afterPortIn_inputs, afterPortIn_inputs, hrest]

/-- Settles O32: for a legal word both sides perform the command of `i`. -/
theorem stepRunsTheDecodedInstruction : Obligations.StepRunsTheDecodedInstruction := by
  refine ⟨fun s cw rest i hin hdec _ => ?_, fun s nbits w i htable => ?_⟩
  · rw [step_of_legal hin hdec, exec_eq_perform, State.afterPortIn, hin, List.tail_cons]
  · have hdec : decode (tableWord nbits w) = .ok i := by
      unfold decodeTableWord at htable
      split at htable
      next hok => rw [hok, Option.some.inj htable]
      next => exact absurd htable nofun
    rw [State.withFetchWord, step_presentNext hdec, exec_eq_perform]

end Sys2Proof.Machine
end

section
/-! PROOFS. The family `70_reset_and_hazards.md`. First what a cycle in reset makes of a state, and then a list of them (R151), and last
the statements O34, O39 and O47. -/

namespace Sys2Proof.Machine

/-! ## Cycles in reset (R151) -/

/-- With `rst = 1` the other two ports are not looked at (R134, R151). -/
theorem afterInput_of_rst (s : State) (p : PortIn) (h : p.rst = true) : s.afterInput p = resetCycle s :=
  Datapath.nextState_of_reset { s with inputs := p :: s.inputs } h

@[simp] theorem resetCycle_resetCycle (s : State) : resetCycle (resetCycle s) = resetCycle s := rfl

/-- After a first reset cycle, further ones change nothing. -/
theorem afterInputs_resetCycle (s : State) (ps : List PortIn) (h : ∀ p ∈ ps, p.rst = true) :
    (resetCycle s).afterInputs ps = resetCycle s := by
  induction ps with
  | nil => rfl
  | cons p ps ih =>
    obtain ⟨hp, hps⟩ := List.forall_mem_cons.1 h
    rw [afterInputs_cons, afterInput_of_rst _ p hp, resetCycle_resetCycle, ih hps]

/-- Any positive number of cycles in reset is one reset cycle. -/
theorem afterInputs_of_rst (s : State) (ps : List PortIn) (hne : ps ≠ []) (h : ∀ p ∈ ps, p.rst = true) :
    s.afterInputs ps = resetCycle s := by
  cases ps with
  | nil => exact absurd rfl hne
  | cons p ps =>
    obtain ⟨hp, hps⟩ := List.forall_mem_cons.1 h
    rw [afterInputs_cons, afterInput_of_rst s p hp, afterInputs_resetCycle s ps hps]

/-! ## The statements -/

/-- Settles O34: one reset cycle and the run of any positive number of them both end in `resetCycle`, which clears the cells. -/
theorem resetCycleClearsEveryCell : Obligations.ResetCycleClearsEveryCell := by
  refine ⟨fun s valid cw rest hin => ?_, fun s hne hrst => ?_⟩
  · have hstep : step s = .next { resetCycle s with inputs := rest } := by
      rw [← afterInput_of_rst s ⟨true, valid, cw⟩ rfl, ← step_input, ← hin]
    exact ⟨_, hstep, resetCycle_cells s, resetCycle_rsp s, rfl⟩
  · have hend : s.afterInputs s.inputs = resetCycle s := afterInputs_of_rst s s.inputs hne hrst
    exact ⟨_, runInputs_eq s s.inputs, by rw [hend, resetCycle_cells, Cells.zero]⟩

/-- Settles O39: `step_bits` says of each of the four kinds of cycle that it answers a next state and takes one input. -/
theorem everyStepIsANextState : Obligations.EveryStepIsANextState := by
  intro s
  obtain ⟨t, hstep, hinputs, -⟩ := step_bits s
  exact ⟨t, hstep, hinputs⟩

/-- Settles O47: the response at reset is the one without a command, which is no error. -/
theorem resetHasTheInvariant : Obligations.ResetHasTheInvariant :=
  ⟨inv_of_no_error State.reset false 0#64 reset_rsp (.inr rfl), by rw [State.faultFree, reset_faults, List.isEmpty_nil]⟩

end Sys2Proof.Machine
end
